-- ==== Sys2Proof/Word.lean ====
section
/-! DEFINITION. The word types of the block (00_scope.md R5): all values are unsigned bit vectors. -/

namespace Sys2Proof

/-- A byte of a frame or of a response, and the checksum's width CRC_W (R5). -/
abbrev Byte := BitVec 8

/-- A CommandWord, DataWord or tick: WORD_W = 16 bits (R5). -/
abbrev Word := BitVec 16

/-- A bus address as the block stores it: ADDR_W = 8 bits, opaque (R5, R15). -/
abbrev Addr := BitVec 8

/-- The 32-bit operand of the Unit Converter's two reference functions (R140, R141). -/
abbrev Float32Bits := BitVec 32

end Sys2Proof
end

