-- ==== Sys2Proof/Config.lean ====
section
/-! DEFINITION. What is fixed for the machine and is not state (00_scope.md R5, 10_state.md R26), and the one
parameter the spec leaves open, NUM_EVAL (44_unit_converter.md R143). -/

namespace Sys2Proof.Config

/-- TX_CAP: capacity of TXBUF in bytes (R5, R20). -/
def txCap : Nat := 8

/-- RX_CAP: capacity of RXBUF in bytes (R5, R21). -/
def rxCap : Nat := 9

/-- MAX_PAYLOAD: most payload words in a frame (R5, R82). -/
def maxPayload : Nat := 2

/-- MAX_RESP: most words in a response (R5, R93). -/
def maxResp : Nat := 3

/-- DEFAULT_ADDR, a constant of the host's side (R5, R26, R61). -/
def defaultAddr : Addr := 0x59#8

/-- GC_ADDR: the general-call bus address (R5, R40). -/
def gcAddr : Addr := 0x00#8

/-- DEFAULT_HUM_TICK, "humidity compensation disabled", a constant of the host's side (R5, R26, R61). -/
def defaultHumTick : Word := 0x8000#16

/-- DEFAULT_TEMP_TICK, "temperature compensation disabled", a constant of the host's side (R5, R26, R61). -/
def defaultTempTick : Word := 0x6666#16

/-- The two values of the open parameter NUM_EVAL (R143, 92_eei_decisions.md D5). -/
inductive NumEval where
  | exact
  | binary32Stepwise
  deriving DecidableEq, Repr

/-- NUM_EVAL at the value R143 fixes as the reference (log entry 16). -/
def numEval : NumEval := .exact

/-- HUM2TICK under `binary32Stepwise`: R143 gives no rounding for the steps, so the value is free (log entry 16). -/
opaque stepwiseHumidity : Float32Bits → Word

/-- TEMP2TICK under `binary32Stepwise`: free, as `stepwiseHumidity` is (log entry 16). -/
opaque stepwiseTemperature : Float32Bits → Word

end Sys2Proof.Config
end

