-- ==== Sys2Proof/Machine/Bytes.lean ====
section
/-! DEFINITION. Splitting a word into bytes and assembling a word from bytes, big-endian (20_memory.md R30,
30_encoding.md R57). -/

namespace Sys2Proof.Machine

/-- `w[15:8]` (R57). -/
def hiByte (w : Word) : Byte := w.extractLsb' 8 8

/-- `w[7:0]` (R57). -/
def loByte (w : Word) : Byte := w.extractLsb' 0 8

/-- `{hi, lo} = hi * 256 + lo`, unsigned (R57). -/
def mkWord (hi lo : Byte) : Word := hi ++ lo

end Sys2Proof.Machine
end

