-- ==== Sys2Proof/Machine/Checksum.lean ====
section
/-! DEFINITION. The Checksum Engine as pure functions (40_checksum.md R70 to R72, parameters of R5). -/

namespace Sys2Proof.Machine

/-- CRC_POLY (R5). -/
def crcPoly : Byte := 0x31#8

/-- CRC_INIT (R5, R23). -/
def crcInit : Byte := 0xFF#8

/-- `crc8_bit(r)`: the test is made on `r` before the shift (R70). -/
def crc8Bit (r : Byte) : Byte :=
  if r.msb then (r <<< 1) ^^^ crcPoly else r <<< 1

/-- `crc8_byte(r, b)`: the whole byte is XORed in at once, then exactly eight bit steps (R71). -/
def crc8Byte (r b : Byte) : Byte :=
  crc8Bit (crc8Bit (crc8Bit (crc8Bit (crc8Bit (crc8Bit (crc8Bit (crc8Bit (r ^^^ b))))))))

/-- `checksum(w)`: initial value 0xFF, high byte first, no final XOR, no reflection (R72). -/
def checksum (w : Word) : Byte :=
  crc8Byte (crc8Byte crcInit (hiByte w)) (loByte w)

end Sys2Proof.Machine
end

