-- ==== Sys2Proof/Machine/Framer.lean ====
section
/-! DEFINITION. The Command Framer as a pure function (41_framer.md R80, R82). -/

namespace Sys2Proof.Machine

/-- The triplet `t(w) = [w[15:8], w[7:0], checksum(w)]` of a word on the wire (R80, R95). -/
def triplet (w : Word) : List Byte := [hiByte w, loByte w, checksum w]

/-- The triplets of a sequence of words, in order. -/
def triplets : List Word → List Byte
  | [] => []
  | w :: ws => triplet w ++ triplets ws

/-- `frame(cmd, pl)`: the two bytes of the command, high byte first and without a checksum of their own, then one
triplet per payload word (R80). -/
def frameBytes (cmd : Word) (pl : List Word) : List Byte :=
  [hiByte cmd, loByte cmd] ++ triplets pl

/-- The framer's contract: at most two payload words (R82). -/
def frameDomain (pl : List Word) : Bool := pl.length ≤ Config.maxPayload

end Sys2Proof.Machine
end

