-- ==== Sys2Proof/Syntax.lean ====
section
/-! DEFINITION. The syntax of the block: its operations, the host's request record, and `Instr`, one constructor per
row of spec/opcode_table.json. -/

namespace Sys2Proof

/-- The eight host operations (30_encoding.md R53). -/
inductive Op where
  | beginOp
  | endOp
  | getSerial
  | condition
  | measureRaw
  | selfTest
  | heaterOff
  | softReset
  deriving DecidableEq, Repr

/-- The host's request `req(opsel, addr, p0, p1)`: a record of four fields, not a packed word (R43, R52). -/
structure Request where
  opsel : BitVec 3
  addr  : Addr
  p0    : Word
  p1    : Word
  deriving DecidableEq, Repr

/-- One constructor per row of the opcode table. A host operation carries every field of its request, because the
accept step latches `p0` and `p1` whatever the operation (R11, R101). -/
inductive Instr where
  /-- BEGIN (R115). -/
  | beginOp (addr : Addr) (p0 p1 : Word)
  /-- END (R116). -/
  | endOp (addr : Addr) (p0 p1 : Word)
  /-- GET_SERIAL (R117). -/
  | getSerial (addr : Addr) (p0 p1 : Word)
  /-- CONDITION (R118). -/
  | condition (addr : Addr) (p0 p1 : Word)
  /-- MEASURE_RAW (R119). -/
  | measureRaw (addr : Addr) (p0 p1 : Word)
  /-- SELF_TEST (R120). -/
  | selfTest (addr : Addr) (p0 p1 : Word)
  /-- HEATER_OFF (R121). -/
  | heaterOff (addr : Addr) (p0 p1 : Word)
  /-- SOFT_RESET (R122). -/
  | softReset (addr : Addr) (p0 p1 : Word)
  /-- GET_SERIAL.wire: the frame GET_SERIAL and BEGIN send (R54, R56). -/
  | getSerialWire
  /-- SELF_TEST.wire (R54, R56). -/
  | selfTestWire
  /-- HEATER_OFF.wire (R54, R56). -/
  | heaterOffWire
  /-- SOFT_RESET.wire (R54, R56). -/
  | softResetWire
  /-- CONDITION.wire: FRAME2 with the two ticks and their checksum bytes (R50, R54). -/
  | conditionWire (hum : Word) (humCrc : Byte) (temp : Word) (tempCrc : Byte)
  /-- MEASURE_RAW.wire: FRAME2 with the two ticks and their checksum bytes (R50, R54). -/
  | measureRawWire (hum : Word) (humCrc : Byte) (temp : Word) (tempCrc : Byte)
  /-- CRC8_BIT (R70). -/
  | crc8Bit (r : Byte)
  /-- CRC8_BYTE (R71). -/
  | crc8Byte (r b : Byte)
  /-- CRC8 (R72). -/
  | crc8 (w : Word)
  /-- FRAME (R80). -/
  | frame (cmd : Word) (payload : List Word)
  /-- PARSE (R90). -/
  | parse (buf : List Byte) (n : Nat)
  /-- HUM2TICK (R140). -/
  | hum2tick (pct : Float32Bits)
  /-- TEMP2TICK (R141). -/
  | temp2tick (celsius : Float32Bits)
  deriving DecidableEq, Repr

/-- Where the operands of a pure function stand when it is evaluated on its own: the checksum port of R44 (`crc`), and
the model's way to evaluate the other functions that no host operation selects (log entry 8). The parser's expected
word count is an argument of its own, not one of its bytes (R59). -/
inductive EvalPort where
  | crcBit
  | crcByte
  | crc
  | framer
  | parser (n : Nat)
  | humidity
  | temperature
  deriving DecidableEq, Repr

/-- The places where the block, or a reader of its wire, meets an instruction: the request port (R43), the wire (R50),
and the evaluation port. The bits of an instruction do not say which place they stand in (R50, R59). -/
inductive Port where
  | request
  | wire
  | eval (e : EvalPort)
  deriving DecidableEq, Repr

/-- Operand bytes presented at the evaluation port. -/
structure Presented where
  port  : EvalPort
  bytes : List Byte
  deriving DecidableEq, Repr

/-- Why bytes decode to no instruction. -/
inductive DecodeError where
  /-- More or fewer bytes than the row has (R59). -/
  | wrongLength
  /-- A bit above the 3-bit selector is set in the first byte of a request (log entry 5). -/
  | reservedBits
  /-- The command word is none of the six (R56, R58). -/
  | unknownCommand
  /-- A payload word of a FRAME operand does not carry its checksum (DESIGN CHOICE, log entry 25). -/
  | checksumMismatch
  deriving DecidableEq, Repr

end Sys2Proof
end

