-- ==== Sys2Proof/Machine/Operands.lean ====
section
/-! DEFINITION. The operand forms: the selector codes (30_encoding.md R53) and the attribute table of the operations
(R54, R56). -/

namespace Sys2Proof

/-- OPSEL, the selector code of an operation (R53). -/
def Op.sel : Op → BitVec 3
  | .beginOp => 0
  | .endOp => 1
  | .getSerial => 2
  | .condition => 3
  | .measureRaw => 4
  | .selfTest => 5
  | .heaterOff => 6
  | .softReset => 7

/-- The operation a selector names: all eight values are assigned (R53, R58). -/
def Op.ofSel (v : BitVec 3) : Op :=
  match v.toNat with
  | 0 => .beginOp
  | 1 => .endOp
  | 2 => .getSerial
  | 3 => .condition
  | 4 => .measureRaw
  | 5 => .selfTest
  | 6 => .heaterOff
  | _ => .softReset

namespace Machine

/-- `cmd_word(op)`: BEGIN sends GET_SERIAL's word, END sends nothing (R54, R56). -/
def cmdWord : Op → Option Word
  | .beginOp => some 0x3682#16
  | .endOp => none
  | .getSerial => some 0x3682#16
  | .condition => some 0x2612#16
  | .measureRaw => some 0x2619#16
  | .selfTest => some 0x280E#16
  | .heaterOff => some 0x3615#16
  | .softReset => some 0x0006#16

/-- `payload(op)` over the ticks `p0`, `p1` (R54, R101): humidity first, unaltered (R11, R57). -/
def payload (op : Op) (p0 p1 : Word) : List Word :=
  match op with
  | .condition => [p0, p1]
  | .measureRaw => [p0, p1]
  | .beginOp | .endOp | .getSerial | .selfTest | .heaterOff | .softReset => []

/-- `delay_ms(op)`, none for END (R54, R177). -/
def delayMs : Op → Option Nat
  | .beginOp => some 1
  | .endOp => none
  | .getSerial => some 1
  | .condition => some 50
  | .measureRaw => some 50
  | .selfTest => some 320
  | .heaterOff => some 1
  | .softReset => some 20

/-- `resp_words(op)` (R54). -/
def respWords : Op → Nat
  | .beginOp => 3
  | .endOp => 0
  | .getSerial => 3
  | .condition => 1
  | .measureRaw => 2
  | .selfTest => 1
  | .heaterOff => 0
  | .softReset => 0

/-- Does the operation need `BOUND = 1` when requested: the six chip operations (R54, R160)? -/
def needsBound : Op → Bool
  | .beginOp | .endOp => false
  | .getSerial | .condition | .measureRaw | .selfTest | .heaterOff | .softReset => true

/-- `F(op) = frame(cmd_word(op), payload(op))` (R101, R113); END has none. -/
def opFrame (op : Op) (p0 p1 : Word) : List Byte :=
  match cmdWord op with
  | some c => frameBytes c (payload op p0 p1)
  | none => []

end Machine
end Sys2Proof
end

