-- ==== Sys2Proof/Machine/Converter.lean ====
section
/-! DEFINITION. The Unit Converter's two reference functions over exact rational arithmetic (44_unit_converter.md
R140 to R143). They are the host's, outside the block (00_scope.md R4). -/

namespace Sys2Proof.Machine

/-- A rational number `num / den` with a positive denominator. -/
structure Frac where
  num : Int
  den : Nat
  deriving DecidableEq, Repr

/-- The number a binary32 operand denotes, or that it denotes none (R143). -/
inductive Real32 where
  | finite (x : Frac)
  | posInf
  | negInf
  | nan
  deriving DecidableEq, Repr

/-- The magnitude of a finite binary32 operand: subnormal where the exponent field is 0, else with the hidden bit
(PRESUMED: the layout of IEEE 754 binary32, log entry 15). -/
def magnitude32 (expo man : Nat) : Frac :=
  if expo = 0 then ⟨man, 2 ^ 149⟩
  else if 150 ≤ expo then ⟨((man + 2 ^ 23) * 2 ^ (expo - 150) : Nat), 1⟩
  else ⟨(man + 2 ^ 23 : Nat), 2 ^ (150 - expo)⟩

/-- The real number a binary32 bit pattern denotes: sign bit 31, exponent bits 30..23, fraction bits 22..0
(PRESUMED: the layout of IEEE 754 binary32, log entry 15). -/
def real32 (b : Float32Bits) : Real32 :=
  let neg := b.msb
  let expo := (b.extractLsb' 23 8).toNat
  let man := (b.extractLsb' 0 23).toNat
  if expo = 255 then
    if man = 0 then (if neg then .negInf else .posInf) else .nan
  else
    let m := magnitude32 expo man
    .finite ⟨if neg then -m.num else m.num, m.den⟩

/-- `min(hi, max(lo, x))`; an infinite input clamps to the bound on its side, a NaN has no value (R140, R141, R143). -/
def clamp32 (lo hi : Int) : Real32 → Option Frac
  | .finite x =>
    some (if x.num < lo * x.den then ⟨lo, 1⟩ else if hi * x.den < x.num then ⟨hi, 1⟩ else x)
  | .posInf => some ⟨hi, 1⟩
  | .negInf => some ⟨lo, 1⟩
  | .nan => none

/-- `floor((c - lo) * 65535 / (hi - lo) + 1/2)`: round half up (R142), of the clamped input `c` in `[lo, hi]`. -/
def tickOf (lo hi : Int) (c : Frac) : Word :=
  BitVec.ofInt 16 (((c.num - lo * c.den) * 65535 * 2 + (hi - lo) * c.den) / (2 * (hi - lo) * c.den))

/-- `humidity_to_ticks`, no result for a NaN (R140, R143). -/
def humidityTicks (pct : Float32Bits) : Option Word := (clamp32 0 100 (real32 pct)).map (tickOf 0 100)

/-- `temperature_to_ticks`, no result for a NaN (R141, R143). -/
def temperatureTicks (celsius : Float32Bits) : Option Word :=
  (clamp32 (-45) 130 (real32 celsius)).map (tickOf (-45) 130)

/-- HUM2TICK under the parameter NUM_EVAL; a NaN is refused under either value (R143). -/
def humidityUnder (mode : Config.NumEval) (pct : Float32Bits) : Option Word :=
  match mode with
  | .exact => humidityTicks pct
  | .binary32Stepwise => (humidityTicks pct).map fun _ => Config.stepwiseHumidity pct

/-- TEMP2TICK under the parameter NUM_EVAL; a NaN is refused under either value (R143). -/
def temperatureUnder (mode : Config.NumEval) (celsius : Float32Bits) : Option Word :=
  match mode with
  | .exact => temperatureTicks celsius
  | .binary32Stepwise => (temperatureTicks celsius).map fun _ => Config.stepwiseTemperature celsius

/-- Does the operand denote no number (R143)? -/
def isNaN32 (b : Float32Bits) : Bool := real32 b == .nan

end Sys2Proof.Machine
end

