-- ==== Sys2Proof/Machine/Parser.lean ====
section
/-! DEFINITION. The Response Parser as a pure function (42_parser.md R90 to R93). -/

namespace Sys2Proof.Machine

/-- What the parser answers: the words, `fail(E_CRC)`, or no meaning outside its contract (R90, R93). -/
inductive ParseResult where
  | ok (ws : List Word)
  | badCrc
  | outside
  deriving DecidableEq, Repr

/-- The parser's contract: `n <= 3` and at least `3n` bytes (R90, R93). -/
def parseDomain (buf : List Byte) (n : Nat) : Bool :=
  n ≤ Config.maxResp && 3 * n ≤ buf.length

/-- The scan over `n` triplets in increasing index, with the words read so far: none as soon as a triplet's checksum
byte differs (R90). Bytes after the `n`th triplet are not looked at (R93). -/
def scanTriplets : List Byte → Nat → Option (List Word)
  | _, 0 => some []
  | hi :: lo :: crc :: rest, n + 1 =>
    if checksum (mkWord hi lo) = crc then (scanTriplets rest n).map (mkWord hi lo :: ·) else none
  | _, _ + 1 => none

/-- `parse(buf, n)` (R90), given no meaning outside its contract (R93). -/
def parseBytes (buf : List Byte) (n : Nat) : ParseResult :=
  if parseDomain buf n then
    match scanTriplets buf n with
    | some ws => .ok ws
    | none => .badCrc
  else .outside

end Sys2Proof.Machine
end

