-- ==== Sys2Proof/WellFormed.lean ====
section
/-! DEFINITION. Which terms of `Instr` are instructions of the spec: operands inside the contracts of their rows. -/

namespace Sys2Proof

/-- The checks, one per row that has one:
a FRAME2 frame carries the checksum of each tick (30_encoding.md R50);
FRAME takes at most two payload words (41_framer.md R82);
PARSE takes `n <= 3` and at least `3n` bytes (42_parser.md R93);
the converter's operand denotes a number (44_unit_converter.md R143).
Every other operand has no reserved value (R53, R58). -/
def WellFormed (i : Instr) : Bool :=
  match i with
  | .beginOp _ _ _ | .endOp _ _ _ | .getSerial _ _ _ | .condition _ _ _ => true
  | .measureRaw _ _ _ | .selfTest _ _ _ | .heaterOff _ _ _ | .softReset _ _ _ => true
  | .getSerialWire | .selfTestWire | .heaterOffWire | .softResetWire => true
  | .conditionWire h x t y => x == Machine.checksum h && y == Machine.checksum t
  | .measureRawWire h x t y => x == Machine.checksum h && y == Machine.checksum t
  | .crc8Bit _ | .crc8Byte _ _ | .crc8 _ => true
  | .frame _ pl => Machine.frameDomain pl
  | .parse buf n => Machine.parseDomain buf n
  | .hum2tick pct => !Machine.isNaN32 pct
  | .temp2tick c => !Machine.isNaN32 c

end Sys2Proof
end

