-- ==== Sys2Proof/Decode.lean ====
section
/-! DEFINITION. Decoding: bytes at a port to an instruction or a named rejection, total on any bytes; then the encoder,
written from the same tables (30_encoding.md R50 to R59; spec/opcode_table.json). -/

namespace Sys2Proof

/-- The host operation a request names (R52, R53). No request is illegal (R58). -/
def decodeRequest (r : Request) : Instr :=
  match Op.ofSel r.opsel with
  | .beginOp => .beginOp r.addr r.p0 r.p1
  | .endOp => .endOp r.addr r.p0 r.p1
  | .getSerial => .getSerial r.addr r.p0 r.p1
  | .condition => .condition r.addr r.p0 r.p1
  | .measureRaw => .measureRaw r.addr r.p0 r.p1
  | .selfTest => .selfTest r.addr r.p0 r.p1
  | .heaterOff => .heaterOff r.addr r.p0 r.p1
  | .softReset => .softReset r.addr r.p0 r.p1

/-- A request written as six bytes: selector, address, `p0`, `p1`, words high byte first. DESIGN CHOICE (log entry 5):
the spec gives the record no packing (R52). -/
def requestBytes (r : Request) : List Byte :=
  [r.opsel.zeroExtend 8, r.addr, Machine.hiByte r.p0, Machine.loByte r.p0, Machine.hiByte r.p1, Machine.loByte r.p1]

/-- The request six bytes stand for (log entry 5). -/
def requestOfBytes : List Byte → Except DecodeError Request
  | [b, a, h0, l0, h1, l1] =>
    if b.extractLsb' 3 5 = 0#5 then
      .ok ⟨b.extractLsb' 0 3, a, Machine.mkWord h0 l0, Machine.mkWord h1 l1⟩
    else .error .reservedBits
  | _ => .error .wrongLength

/-- A two-byte frame, told apart by all 16 bits of its command word (R50, R56). -/
def decodeFrame0 (c : Word) : Except DecodeError Instr :=
  if c = 0x3682#16 then .ok .getSerialWire
  else if c = 0x280E#16 then .ok .selfTestWire
  else if c = 0x3615#16 then .ok .heaterOffWire
  else if c = 0x0006#16 then .ok .softResetWire
  else if c = 0x2612#16 then .error .wrongLength
  else if c = 0x2619#16 then .error .wrongLength
  else .error .unknownCommand

/-- An eight-byte frame (R50, R56). The checksum bytes are operands: `WellFormed` says when they fit (log entry 22). -/
def decodeFrame2 (c h : Word) (x : Byte) (t : Word) (y : Byte) : Except DecodeError Instr :=
  if c = 0x2612#16 then .ok (.conditionWire h x t y)
  else if c = 0x2619#16 then .ok (.measureRawWire h x t y)
  else .error .unknownCommand

/-- The frame bytes stand for, on the wire (R50, R59). -/
def decodeWire : List Byte → Except DecodeError Instr
  | [a, b] => decodeFrame0 (Machine.mkWord a b)
  | [a, b, h1, h0, x, t1, t0, y] =>
    decodeFrame2 (Machine.mkWord a b) (Machine.mkWord h1 h0) x (Machine.mkWord t1 t0) y
  | _ => .error .wrongLength

/-- FRAME's operand in bytes: a command word, then up to two payload words each with its checksum byte; a wrong
checksum byte is refused. DESIGN CHOICE (log entry 25): R80 gives FRAME words and no encoding of them. -/
def decodeFramer : List Byte → Except DecodeError Instr
  | a :: b :: rest =>
    if rest.length = 0 ∨ rest.length = 3 ∨ rest.length = 6 then
      match Machine.scanTriplets rest (rest.length / 3) with
      | some ws => .ok (.frame (Machine.mkWord a b) ws)
      | none => .error .checksumMismatch
    else .error .wrongLength
  | _ => .error .wrongLength

/-- The pure function evaluated at an evaluation port. -/
def decodeEval (e : EvalPort) (bs : List Byte) : Except DecodeError Instr :=
  match e with
  | .crcBit => match bs with
    | [r] => .ok (.crc8Bit r)
    | _ => .error .wrongLength
  | .crcByte => match bs with
    | [r, b] => .ok (.crc8Byte r b)
    | _ => .error .wrongLength
  | .crc => match bs with
    | [h, l] => .ok (.crc8 (Machine.mkWord h l))
    | _ => .error .wrongLength
  | .framer => decodeFramer bs
  | .parser n => .ok (.parse bs n)
  | .humidity => match bs with
    | [a, b, c, d] => .ok (.hum2tick (a ++ b ++ c ++ d))
    | _ => .error .wrongLength
  | .temperature => match bs with
    | [a, b, c, d] => .ok (.temp2tick (a ++ b ++ c ++ d))
    | _ => .error .wrongLength

/-- The decoder: the instruction that bytes at a port stand for. -/
def decode (p : Port) (bs : List Byte) : Except DecodeError Instr :=
  match p with
  | .request => (requestOfBytes bs).map decodeRequest
  | .wire => decodeWire bs
  | .eval e => decodeEval e bs

/-- The four bytes of a 32-bit operand, most significant first (opcode table, rows HUM2TICK and TEMP2TICK). -/
def operandBytes (v : Float32Bits) : List Byte :=
  [v.extractLsb' 24 8, v.extractLsb' 16 8, v.extractLsb' 8 8, v.extractLsb' 0 8]

/-- The port an instruction stands at. -/
def portOf : Instr → Port
  | .beginOp _ _ _ | .endOp _ _ _ | .getSerial _ _ _ | .condition _ _ _ => .request
  | .measureRaw _ _ _ | .selfTest _ _ _ | .heaterOff _ _ _ | .softReset _ _ _ => .request
  | .getSerialWire | .selfTestWire | .heaterOffWire | .softResetWire => .wire
  | .conditionWire _ _ _ _ | .measureRawWire _ _ _ _ => .wire
  | .crc8Bit _ => .eval .crcBit
  | .crc8Byte _ _ => .eval .crcByte
  | .crc8 _ => .eval .crc
  | .frame _ _ => .eval .framer
  | .parse _ n => .eval (.parser n)
  | .hum2tick _ => .eval .humidity
  | .temp2tick _ => .eval .temperature

/-- The eight bytes of a FRAME2 frame with its checksum bytes given (R50). -/
def frame2Bytes (c h : Word) (x : Byte) (t : Word) (y : Byte) : List Byte :=
  [Machine.hiByte c, Machine.loByte c, Machine.hiByte h, Machine.loByte h, x, Machine.hiByte t, Machine.loByte t, y]

/-- The two bytes of a FRAME0 frame (R50). -/
def frame0Bytes (c : Word) : List Byte := [Machine.hiByte c, Machine.loByte c]

/-- The encoder: the bytes of an instruction at its port. -/
def encode : Instr → List Byte
  | .beginOp a p0 p1 => requestBytes ⟨Op.beginOp.sel, a, p0, p1⟩
  | .endOp a p0 p1 => requestBytes ⟨Op.endOp.sel, a, p0, p1⟩
  | .getSerial a p0 p1 => requestBytes ⟨Op.getSerial.sel, a, p0, p1⟩
  | .condition a p0 p1 => requestBytes ⟨Op.condition.sel, a, p0, p1⟩
  | .measureRaw a p0 p1 => requestBytes ⟨Op.measureRaw.sel, a, p0, p1⟩
  | .selfTest a p0 p1 => requestBytes ⟨Op.selfTest.sel, a, p0, p1⟩
  | .heaterOff a p0 p1 => requestBytes ⟨Op.heaterOff.sel, a, p0, p1⟩
  | .softReset a p0 p1 => requestBytes ⟨Op.softReset.sel, a, p0, p1⟩
  | .getSerialWire => frame0Bytes 0x3682#16
  | .selfTestWire => frame0Bytes 0x280E#16
  | .heaterOffWire => frame0Bytes 0x3615#16
  | .softResetWire => frame0Bytes 0x0006#16
  | .conditionWire h x t y => frame2Bytes 0x2612#16 h x t y
  | .measureRawWire h x t y => frame2Bytes 0x2619#16 h x t y
  | .crc8Bit r => [r]
  | .crc8Byte r b => [r, b]
  | .crc8 w => [Machine.hiByte w, Machine.loByte w]
  | .frame c pl => Machine.frameBytes c pl
  | .parse buf _ => buf
  | .hum2tick v => operandBytes v
  | .temp2tick v => operandBytes v

/-- `k` bytes of a number, most significant first: the opcode table reads a frame as one big-endian number. -/
def bytesBE : Nat → Nat → List Byte
  | 0, _ => []
  | k + 1, w => BitVec.ofNat 8 (w >>> (8 * k)) :: bytesBE k w

/-- `k` bytes of a number, least significant first: the first byte holds bits 7..0. -/
def bytesLE : Nat → Nat → List Byte
  | 0, _ => []
  | k + 1, w => BitVec.ofNat 8 w :: bytesLE k (w >>> 8)

/-- The port and the bytes that `nbits` bits numbered as the opcode table numbers them are read at. The table's rows of
format PRIMITIVE and HOST_REFERENCE have no opcode, so rows of one width cannot be told apart by their bits: a width goes
to the row with fixed bits that fits, else to one row of that width (log entry 10). -/
def tablePort (nbits w : Nat) : Port × List Byte :=
  match (nbits + 7) / 8 with
  | 1 => if w % 256 < 8 then (.request, bytesLE 6 (w % 256)) else (.eval .crcBit, bytesBE 1 w)
  | 2 =>
    match w % 65536 with
    | 0x3682 | 0x280E | 0x3615 | 0x0006 => (.wire, bytesBE 2 w)
    | 0x2612 | 0x2619 => (.wire, bytesBE 2 w ++ bytesBE 6 0)
    | _ => (.eval .crc, bytesBE 2 w)
  | 3 => (.eval (.parser 1), bytesBE 3 w)
  | 4 => (.eval .humidity, bytesBE 4 w)
  | 5 => (.eval .framer, bytesBE 5 w)
  | 6 => (.request, bytesLE 6 w)
  | 8 =>
    match (w >>> 48) % 65536 with
    | 0x2612 | 0x2619 => (.wire, bytesBE 8 w)
    | _ => (.eval .framer, bytesBE 8 w)
  | 9 => (.eval (.parser 3), bytesBE 9 w)
  | k => (.wire, bytesBE k w)

/-- The instruction the decoder reads from `nbits` bits `w`, numbered as spec/opcode_table.json numbers them. -/
def decodeTableWord (nbits w : Nat) : Option Instr :=
  (decode (tablePort nbits w).1 (tablePort nbits w).2).toOption

end Sys2Proof
end

