-- ==== Sys2Proof/Machine/State.lean ====
section
/-! DEFINITION. The machine's state as plain data (10_state.md R10 to R29), its inputs, outputs and trace, the reasons a
step can stop, and the state after reset (R27, R170). -/

namespace Sys2Proof.Machine

/-- PHASE, the sequencer's program counter: eight values (R13). -/
inductive Phase where
  | idle
  | relOld
  | opening
  | write
  | delay
  | read
  | check
  | relFail
  deriving DecidableEq, Repr

/-- STATUS: the outcome of an operation; code 7 has no constructor because no rule writes it (R18, R151). -/
inductive Status where
  | ok
  | eOpen
  | eWrite
  | eRead
  | eCrc
  | eIdent
  | eNotReady
  deriving DecidableEq, Repr

/-- The handle of a binding: an opaque token of the transport (R16, R37). The block never looks at it (log entry 6). -/
structure Handle where
  token : Nat
  deriving DecidableEq, Repr

/-- One call to an external agent with its arguments and its answer, as the trace records it (R7). -/
inductive Event where
  /-- `T.open(a)`, answered with a handle or `fail` (R37). -/
  | opened (a : Addr) (answer : Option Handle)
  /-- `T.write(h, bytes)`, answered `ok` (true) or `fail` (R38). -/
  | wrote (h : Handle) (bytes : List Byte) (ok : Bool)
  /-- `T.write_general(h, bytes)`, to the general-call address (R40). -/
  | wroteGeneral (h : Handle) (bytes : List Byte) (ok : Bool)
  /-- `T.read(h, n)`, answered with bytes or `fail` (R39). -/
  | didRead (h : Handle) (n : Nat) (answer : Option (List Byte))
  /-- `T.release(h)` (R41). -/
  | released (h : Handle)
  /-- `Z.sleep(ms)` (R42). -/
  | slept (ms : Nat)
  deriving DecidableEq, Repr

/-- The answers the collaborators will give to the calls to come, one queue per primitive: free inputs of the machine
(R9, R37 to R42; log entry 1). An empty queue is a collaborator that does not answer (R49). -/
structure Env where
  /-- Answers of `T.open`: a handle, or none for `fail`. -/
  opens    : List (Option Handle)
  /-- Answers of `T.write`: true for `ok`. -/
  writes   : List Bool
  /-- Answers of `T.write_general`. -/
  generals : List Bool
  /-- Answers of `T.read`: bytes, or none for `fail`. -/
  reads    : List (Option (List Byte))
  /-- How many calls of `T.release` will return. -/
  releases : Nat
  /-- How many calls of `Z.sleep` will return. -/
  sleeps   : Nat
  deriving DecidableEq, Repr

/-- A value answered at the evaluation port (R44; log entry 8). -/
inductive PortOut where
  | byte (b : Byte)
  | word (w : Word)
  | bytes (bs : List Byte)
  | words (ws : List Word)
  | crcFail
  deriving DecidableEq, Repr

/-- Everything the spec gives the machine (R10), then the model's own fields: inputs, port output and trace. -/
structure State where
  /-- Operand register P0, the humidity tick (R11). -/
  p0 : Word
  /-- Operand register P1, the temperature tick (R11). -/
  p1 : Word
  /-- Result register W0 (R12). -/
  w0 : Word
  /-- Result register W1 (R12). -/
  w1 : Word
  /-- Result register W2 (R12). -/
  w2 : Word
  /-- NWORDS, how many of W0..W2 are valid (R12). -/
  nwords : BitVec 2
  /-- PHASE (R13). -/
  phase : Phase
  /-- BOUND: the block holds a transport binding (R14). -/
  bound : Bool
  /-- ADDR, the bus address of the last accepted BEGIN (R15). -/
  addr : Addr
  /-- HND, the handle `T.open` returned (R16). -/
  hnd : Handle
  /-- OP, the operation running or last run (R17); its 3-bit code is `Op.sel`. -/
  op : Op
  /-- STATUS (R18); its 3-bit code is `Status.code`. -/
  status : Status
  /-- TXBUF, eight bytes (R20). -/
  txbuf : List Byte
  /-- TXLEN, 0..8 (R20). -/
  txlen : BitVec 4
  /-- RXBUF, nine bytes (R21). -/
  rxbuf : List Byte
  /-- RXLEN, 0..9 (R21). -/
  rxlen : BitVec 4
  /-- Input: the hardware reset is asserted (R170; log entry 17). -/
  rst : Bool
  /-- Input: the request the host presents at the request port (R43). -/
  req : Option Request
  /-- Input: operands presented at the evaluation port, the checksum port among them (R44; log entry 8). -/
  eval : Option Presented
  /-- Input: the collaborators' answers to come (log entry 1). -/
  env : Env
  /-- Output: the value last answered at the evaluation port (log entry 8). -/
  out : Option PortOut
  /-- The trace: every external call made so far, oldest first (R7; log entry 2). -/
  trace : List Event
  deriving DecidableEq, Repr

/-- Why the machine stops without a next state although an instruction runs. Neither reason can arise from reset. -/
inductive Fault where
  /-- Raised by the DELAY step where OP has no delay and by the READ step where OP has no response words: no rule enables
  a step there (R107, R108, R114; log entry 12). Safe: the model stops where the spec gives no meaning. -/
  | illegalPhase
  /-- Raised by the CHECK step where RXBUF holds fewer than `3n` received bytes: the parser's contract does not hold
  (R93; log entry 13). Safe: the model stops where the spec gives no meaning. -/
  | rxShort
  deriving DecidableEq, Repr

/-- Why an instruction is given no meaning. -/
inductive Refusal where
  /-- Raised by `exec` for an instruction that has no meaning yet. Safe: nothing is claimed of it. -/
  | notModelled (mnemonic : String)
  /-- Raised by `step` for bytes at the evaluation port that are no operand of its function: a length no row has, or a
  FRAME payload word without its checksum. Safe (log entries 8 and 25). -/
  | undecodable (e : DecodeError)
  /-- Raised by FRAME for more than two payload words, which R82 refuses. Safe (log entry 13). -/
  | payloadTooLong
  /-- Raised by PARSE for fewer than `3n` bytes or `n > 3`, which R93 refuses. Safe (log entry 13). -/
  | parseOutside
  /-- Raised by HUM2TICK and TEMP2TICK for a NaN operand, which R143 refuses. Safe (log entry 14). -/
  | nanOperand
  deriving DecidableEq, Repr

/-- The outcome of a step or of an instruction. -/
abbrev Result := Host.Outcome State Fault Refusal

/-- A collaborator that has no answer queued. -/
def Env.silent : Env := ⟨[], [], [], [], 0, 0⟩

/-- The state right after hardware reset (R27, R170). P0, P1, ADDR, HND, TXBUF, TXLEN, RXBUF and RXLEN are unspecified
there: zero is a DESIGN CHOICE (log entry 4, unsafe). -/
def State.reset : State where
  p0 := 0
  p1 := 0
  w0 := 0
  w1 := 0
  w2 := 0
  nwords := 0
  phase := .idle
  bound := false
  addr := 0
  hnd := ⟨0⟩
  op := .endOp
  status := .ok
  txbuf := List.replicate Config.txCap 0
  txlen := 0
  rxbuf := List.replicate Config.rxCap 0
  rxlen := 0
  rst := false
  req := none
  eval := none
  env := Env.silent
  out := none
  trace := []

end Sys2Proof.Machine
end

