-- ==== Sys2Proof/Machine/Flags.lean ====
section
/-! DEFINITION. The derived flags and the result port: what the host can read (10_state.md R18, R19, R24, R29;
20_memory.md R44). The block has no arithmetic condition codes (R29). -/

namespace Sys2Proof.Machine

/-- The 3-bit code of a status (R18, R151). -/
def Status.code : Status → BitVec 3
  | .ok => 0
  | .eOpen => 1
  | .eWrite => 2
  | .eRead => 3
  | .eCrc => 4
  | .eIdent => 5
  | .eNotReady => 6

/-- BUSY = (PHASE != IDLE) (R19). -/
def State.busy (s : State) : Bool := s.phase != .idle

/-- SELFTEST_PASS (R5). -/
def selfTestPass : Word := 0xD400#16

/-- ST_PASS = (W0 == 0xD400) (R24). -/
def State.stPass (s : State) : Bool := s.w0 == selfTestPass

/-- ST_VOC_FAIL = W0[0] (R24). -/
def State.stVocFail (s : State) : Bool := s.w0.getLsbD 0

/-- ST_NOX_FAIL = W0[1] (R24). -/
def State.stNoxFail (s : State) : Bool := s.w0.getLsbD 1

/-- What the host reads at the result port (R44). -/
structure ResultPort where
  status    : BitVec 3
  op        : BitVec 3
  nwords    : BitVec 2
  w0        : Word
  w1        : Word
  w2        : Word
  bound     : Bool
  stPass    : Bool
  stVocFail : Bool
  stNoxFail : Bool
  deriving DecidableEq, Repr

/-- The result port, readable only while `BUSY = 0` (R44); while busy nothing is exposed (R19; log entry 21). -/
def State.resultPort (s : State) : Option ResultPort :=
  if s.busy then none
  else some ⟨s.status.code, s.op.sel, s.nwords, s.w0, s.w1, s.w2, s.bound, s.stPass, s.stVocFail, s.stNoxFail⟩

/-- The checksum port: combinational, reads no state (R44). -/
def crcPort (crcIn : Word) : Byte := checksum crcIn

end Sys2Proof.Machine
end

