-- ==== Sys2Proof/Machine/Ops.lean ====
section
/-! DEFINITION. The named operations over the state: register and buffer updates, the abort path (60_exceptions.md
R155), and the sequencer's steps (43_sequencer.md R101 to R112). Every meaning is written over these. -/

namespace Sys2Proof.Machine

/-! ### Updates -/

/-- Appends a call to the trace (R7). -/
def State.log (s : State) (e : Event) : State := { s with trace := s.trace ++ [e] }

/-- `PHASE <- p` (R6, R13). -/
def State.setPhase (s : State) (p : Phase) : State := { s with phase := p }

/-- The queues after an answer was taken. -/
def State.setEnv (s : State) (e : Env) : State := { s with env := e }

/-- `STATUS <- c` (R18). -/
def State.setStatus (s : State) (c : Status) : State := { s with status := c }

/-- `ADDR <- a` (R15). -/
def State.setAddr (s : State) (a : Addr) : State := { s with addr := a }

/-- What every accept does: the request is taken from the port, OP, P0 and P1 are latched, STATUS is OK, NWORDS and
W0..W2 are cleared (R101). -/
def State.latch (s : State) (op : Op) (p0 p1 : Word) : State :=
  { s with op := op, p0 := p0, p1 := p1, status := .ok, nwords := 0, w0 := 0, w1 := 0, w2 := 0, req := none }

/-- `HND <- h; BOUND <- 1` (R105). -/
def State.bind (s : State) (h : Handle) : State := { s with hnd := h, bound := true }

/-- `BOUND <- 0` (R104, R112). -/
def State.unbind (s : State) : State := { s with bound := false }

/-- The buffer with its first bytes overwritten: bytes beyond keep what they held (R20, R21). -/
def overwrite (f old : List Byte) : List Byte := f ++ old.drop f.length

/-- `TXBUF[0 .. len(f)-1] <- f; TXLEN <- len(f)` (R20, R101). -/
def State.loadTx (s : State) (f : List Byte) : State :=
  { s with txbuf := overwrite f s.txbuf, txlen := BitVec.ofNat 4 f.length }

/-- `RXBUF[0 .. len(bs)-1] <- bs; RXLEN <- len(bs)` (R21, R108). -/
def State.loadRx (s : State) (bs : List Byte) : State :=
  { s with rxbuf := overwrite bs s.rxbuf, rxlen := BitVec.ofNat 4 bs.length }

/-- `W[i] <- ws[i]` for `i < n`, the others kept; `NWORDS <- n` (R109). -/
def State.loadWords (s : State) (ws : List Word) (n : Nat) : State :=
  { s with w0 := ws.getD 0 s.w0, w1 := ws.getD 1 s.w1, w2 := ws.getD 2 s.w2, nwords := BitVec.ofNat 2 n }

/-- The answer of the evaluation port: the operands are taken, the value stands at the output (R44; log entry 8). -/
def State.answer (s : State) (v : PortOut) : State := { s with out := some v, eval := none }

/-! ### Reads -/

/-- `TXBUF[0 .. TXLEN-1]` (R33). -/
def State.txFrame (s : State) : List Byte := s.txbuf.take s.txlen.toNat

/-- `RXBUF[0 .. RXLEN-1]` (R109). -/
def State.rxFrame (s : State) : List Byte := s.rxbuf.take s.rxlen.toNat

/-- One byte of TXBUF, none outside 0..7 (R22). -/
def State.txByte (s : State) (i : Nat) : Option Byte := s.txbuf[i]?

/-- One byte of RXBUF, none outside 0..8 (R22). -/
def State.rxByte (s : State) (i : Nat) : Option Byte := s.rxbuf[i]?

/-! ### Taking a failure, and hardware reset -/

/-- The abort path `raise Fail(code)`: STATUS holds the code; PHASE goes to REL_FAIL where a BEGIN holds a binding,
else to IDLE; nothing else is written, nothing is saved (R155). There is no return from it (R157). -/
def State.raiseFail (s : State) (code : Status) : State :=
  { s with status := code, phase := if s.op = .beginOp ∧ s.bound = true then .relFail else .idle }

/-- The hardware reset of the block: every register at its reset value (R170), no external call and no wait (R171); the
inputs and outputs outside the block stay, the reset input is taken (log entry 17). -/
def State.hardwareReset (s : State) : State :=
  { State.reset with req := s.req, eval := s.eval, env := s.env, out := s.out, trace := s.trace }

/-! ### The accept step -/

/-- Accept of BEGIN (R101). -/
def acceptBegin (addr : Addr) (p0 p1 : Word) (s : State) : State :=
  ((s.latch .beginOp p0 p1).setAddr addr).setPhase (if s.bound then .relOld else .opening)

/-- Accept of END (R101). -/
def acceptEnd (p0 p1 : Word) (s : State) : State :=
  (s.latch .endOp p0 p1).setPhase (if s.bound then .relOld else .idle)

/-- Accept of a chip operation: E_NOT_READY without any call while unbound, else the frame is built (R101, R160). BOUND
is all it examines (R103). -/
def acceptChip (op : Op) (p0 p1 : Word) (s : State) : State :=
  if s.bound then ((s.latch op p0 p1).loadTx (opFrame op p0 p1)).setPhase .write
  else ((s.latch op p0 p1).setStatus .eNotReady).setPhase .idle

/-! ### The steps of a running operation

A step whose collaborator has not answered is not enabled: the block stays as it is (R49, R100; log entry 3). -/

/-- REL_OLD: the held binding is released before anything else (R104). -/
def relOldStep (s : State) : Result :=
  match s.env.releases with
  | 0 => .next s
  | k + 1 =>
    .next ((((s.setEnv { s.env with releases := k }).log (.released s.hnd)).unbind).setPhase
      (if s.op = .beginOp then .opening else .idle))

/-- OPEN: acquires the binding and builds the get-serial-number frame, or aborts with E_OPEN (R105). -/
def openStep (s : State) : Result :=
  match s.env.opens with
  | [] => .next s
  | some h :: rest =>
    .next (((((s.setEnv { s.env with opens := rest }).log (.opened s.addr (some h))).bind h).loadTx
      (frameBytes 0x3682#16 [])).setPhase .write)
  | none :: rest =>
    .next (((s.setEnv { s.env with opens := rest }).log (.opened s.addr none)).raiseFail .eOpen)

/-- WRITE of SOFT_RESET: the general call, whose answer is ignored (R106). -/
def writeGeneralStep (s : State) : Result :=
  match s.env.generals with
  | [] => .next s
  | a :: rest =>
    .next (((s.setEnv { s.env with generals := rest }).log (.wroteGeneral s.hnd s.txFrame a)).setPhase .delay)

/-- WRITE of every other operation: a failed write aborts with E_WRITE (R106). -/
def writeDeviceStep (s : State) : Result :=
  match s.env.writes with
  | [] => .next s
  | true :: rest =>
    .next (((s.setEnv { s.env with writes := rest }).log (.wrote s.hnd s.txFrame true)).setPhase .delay)
  | false :: rest =>
    .next (((s.setEnv { s.env with writes := rest }).log (.wrote s.hnd s.txFrame false)).raiseFail .eWrite)

/-- WRITE: one call with all of `TXBUF[0 .. TXLEN-1]` (R33, R106). -/
def writeStep (s : State) : Result :=
  if s.op = .softReset then writeGeneralStep s else writeDeviceStep s

/-- DELAY: sleeps `delay_ms(OP)`, then ends the operation or goes on to the read (R107). -/
def delayStep (s : State) : Result :=
  match delayMs s.op with
  | none => .fault .illegalPhase
  | some ms =>
    match s.env.sleeps with
    | 0 => .next s
    | k + 1 =>
      .next (((s.setEnv { s.env with sleeps := k }).log (.slept ms)).setPhase
        (if respWords s.op = 0 then .idle else .read))

/-- READ: one call for all `3n` bytes; `fail`, and an answer of another length, abort with E_READ (R34, R39, R108). -/
def readStep (s : State) : Result :=
  if respWords s.op = 0 then .fault .illegalPhase
  else
    match s.env.reads with
    | [] => .next s
    | none :: rest =>
      .next (((s.setEnv { s.env with reads := rest }).log (.didRead s.hnd (3 * respWords s.op) none)).raiseFail .eRead)
    | some bs :: rest =>
      if bs.length = 3 * respWords s.op then
        .next ((((s.setEnv { s.env with reads := rest }).log
          (.didRead s.hnd (3 * respWords s.op) (some bs))).loadRx bs).setPhase .check)
      else
        .next (((s.setEnv { s.env with reads := rest }).log
          (.didRead s.hnd (3 * respWords s.op) (some bs))).raiseFail .eRead)

/-- `ident_bad(ws)`: all three words equal, and the common value 0x0000 or 0xFFFF (R110). -/
def identBad : List Word → Bool
  | [a, b, c] => a == b && b == c && (a == 0x0000#16 || a == 0xFFFF#16)
  | _ => false

/-- CHECK: the parser, then for BEGIN the identity check; all words are loaded or none (R91, R109). -/
def checkStep (s : State) : Result :=
  match parseBytes s.rxFrame (respWords s.op) with
  | .outside => .fault .rxShort
  | .badCrc => .next (s.raiseFail .eCrc)
  | .ok ws =>
    if s.op = .beginOp ∧ identBad ws = true then .next (s.raiseFail .eIdent)
    else .next ((s.loadWords ws (respWords s.op)).setPhase .idle)

/-- REL_FAIL: a failed BEGIN gives its binding back; STATUS keeps the failure code (R112). -/
def relFailStep (s : State) : Result :=
  match s.env.releases with
  | 0 => .next s
  | k + 1 => .next ((((s.setEnv { s.env with releases := k }).log (.released s.hnd)).unbind).setPhase .idle)

/-- The step of the running operation, by PHASE (R13, R100). In IDLE no operation runs: nothing is done. -/
def runningStep (s : State) : Result :=
  match s.phase with
  | .idle => .next s
  | .relOld => relOldStep s
  | .opening => openStep s
  | .write => writeStep s
  | .delay => delayStep s
  | .read => readStep s
  | .check => checkStep s
  | .relFail => relFailStep s

/-- One step of a host operation `op` (log entry 7): in IDLE it is accepted; while it is the running operation its own
step is taken; while another operation runs, a request for it is not accepted and has no effect (R43). -/
def operation (op : Op) (accepted : State) (s : State) : Result :=
  if s.phase = .idle then .next accepted
  else if s.op = op then runningStep s
  else .next s

/-- A frame on the wire: the WRITE step sends it if it is the frame in TXBUF; at any other time it is not sent and
nothing happens (R33, R106; log entry 9). -/
def sendFrame (f : List Byte) (s : State) : Result :=
  if s.phase = .write ∧ s.txFrame = f then writeStep s else .next s

end Sys2Proof.Machine
end

