-- ==== Sys2Proof/Machine/HostOps.lean ====
section
/-! DEFINITION. The meanings of the eight host operations (43_sequencer.md R115 to R122), each as the step of it that
PHASE selects (log entry 7). -/

namespace Sys2Proof.Machine

/-- BEGIN (R115): release an old binding, open, read the serial number, validate identity. -/
def execBegin (addr : Addr) (p0 p1 : Word) (s : State) : Result :=
  operation .beginOp (acceptBegin addr p0 p1 s) s

/-- END (R116): release the binding if there is one. -/
def execEnd (_addr : Addr) (p0 p1 : Word) (s : State) : Result :=
  operation .endOp (acceptEnd p0 p1 s) s

/-- GET_SERIAL (R117): three words, without the identity check. -/
def execGetSerial (_addr : Addr) (p0 p1 : Word) (s : State) : Result :=
  operation .getSerial (acceptChip .getSerial p0 p1 s) s

/-- CONDITION (R118): both ticks framed, one word read. -/
def execCondition (_addr : Addr) (p0 p1 : Word) (s : State) : Result :=
  operation .condition (acceptChip .condition p0 p1 s) s

/-- MEASURE_RAW (R119): both ticks framed, two words read. -/
def execMeasureRaw (_addr : Addr) (p0 p1 : Word) (s : State) : Result :=
  operation .measureRaw (acceptChip .measureRaw p0 p1 s) s

/-- SELF_TEST (R120): one word read; a fault the chip reports is data. -/
def execSelfTest (_addr : Addr) (p0 p1 : Word) (s : State) : Result :=
  operation .selfTest (acceptChip .selfTest p0 p1 s) s

/-- HEATER_OFF (R121): write and delay, nothing read. -/
def execHeaterOff (_addr : Addr) (p0 p1 : Word) (s : State) : Result :=
  operation .heaterOff (acceptChip .heaterOff p0 p1 s) s

/-- SOFT_RESET (R122): general-call write, its answer ignored, and delay. -/
def execSoftReset (_addr : Addr) (p0 p1 : Word) (s : State) : Result :=
  operation .softReset (acceptChip .softReset p0 p1 s) s

end Sys2Proof.Machine
end

