-- ==== Sys2Proof/Machine/HostReference.lean ====
section
/-! DEFINITION. The meanings of the Unit Converter's two reference functions, outside the block (44_unit_converter.md
R140, R141, R143; log entries 8, 14, 15, 16). -/

namespace Sys2Proof.Machine

/-- HUM2TICK (R140); a NaN is refused (R143). -/
def execHum2tick (pct : Float32Bits) (s : State) : Result :=
  match humidityUnder Config.numEval pct with
  | some t => .next (s.answer (.word t))
  | none => .refused .nanOperand

/-- TEMP2TICK (R141); a NaN is refused (R143). -/
def execTemp2tick (celsius : Float32Bits) (s : State) : Result :=
  match temperatureUnder Config.numEval celsius with
  | some t => .next (s.answer (.word t))
  | none => .refused .nanOperand

end Sys2Proof.Machine
end

