-- ==== Sys2Proof/Machine/Primitives.lean ====
section
/-! DEFINITION. The meanings of the five primitives: pure functions, evaluated at the evaluation port without any effect
on the block (40_checksum.md R70 to R74; 41_framer.md R80, R82; 42_parser.md R90, R93, R94; log entry 8). -/

namespace Sys2Proof.Machine

/-- CRC8_BIT (R70). -/
def execCrc8Bit (r : Byte) (s : State) : Result := .next (s.answer (.byte (crc8Bit r)))

/-- CRC8_BYTE (R71). -/
def execCrc8Byte (r b : Byte) (s : State) : Result := .next (s.answer (.byte (crc8Byte r b)))

/-- CRC8 (R72), the function of the checksum port (R44). -/
def execCrc8 (w : Word) (s : State) : Result := .next (s.answer (.byte (crcPort w)))

/-- FRAME (R80); more than two payload words are refused (R82). -/
def execFrame (cmd : Word) (pl : List Word) (s : State) : Result :=
  if frameDomain pl then .next (s.answer (.bytes (frameBytes cmd pl))) else .refused .payloadTooLong

/-- PARSE (R90); outside its contract it is refused (R93). -/
def execParse (buf : List Byte) (n : Nat) (s : State) : Result :=
  match parseBytes buf n with
  | .ok ws => .next (s.answer (.words ws))
  | .badCrc => .next (s.answer .crcFail)
  | .outside => .refused .parseOutside

end Sys2Proof.Machine
end

