-- ==== Sys2Proof/Machine/WireFrames.lean ====
section
/-! DEFINITION. The meanings of the six wire frames: what the WRITE step sends (20_memory.md R31, R33; 30_encoding.md
R50, R56; 43_sequencer.md R106; log entry 9). -/

namespace Sys2Proof.Machine

/-- GET_SERIAL.wire (R56, R117); BEGIN sends it too (R54). -/
def execGetSerialWire (s : State) : Result := sendFrame (encode .getSerialWire) s

/-- SELF_TEST.wire (R56, R120). -/
def execSelfTestWire (s : State) : Result := sendFrame (encode .selfTestWire) s

/-- HEATER_OFF.wire (R56, R121). -/
def execHeaterOffWire (s : State) : Result := sendFrame (encode .heaterOffWire) s

/-- SOFT_RESET.wire (R56, R122). -/
def execSoftResetWire (s : State) : Result := sendFrame (encode .softResetWire) s

/-- CONDITION.wire (R50, R118). -/
def execConditionWire (h : Word) (x : Byte) (t : Word) (y : Byte) (s : State) : Result :=
  sendFrame (encode (.conditionWire h x t y)) s

/-- MEASURE_RAW.wire (R50, R119). -/
def execMeasureRawWire (h : Word) (x : Byte) (t : Word) (y : Byte) (s : State) : Result :=
  sendFrame (encode (.measureRawWire h x t y)) s

end Sys2Proof.Machine
end

