-- ==== Sys2Proof/Machine/Dispatch.lean ====
section
/-! DEFINITION. One arm per instruction: the meaning it calls. -/

namespace Sys2Proof.Machine

def exec (i : Instr) (s : State) : Host.Outcome State Fault Refusal :=
  match i with
  -- host operations
  | .beginOp addr p0 p1 => Sys2Proof.Machine.execBegin addr p0 p1 s
  | .endOp addr p0 p1 => Sys2Proof.Machine.execEnd addr p0 p1 s
  | .getSerial addr p0 p1 => Sys2Proof.Machine.execGetSerial addr p0 p1 s
  | .condition addr p0 p1 => Sys2Proof.Machine.execCondition addr p0 p1 s
  | .measureRaw addr p0 p1 => Sys2Proof.Machine.execMeasureRaw addr p0 p1 s
  | .selfTest addr p0 p1 => Sys2Proof.Machine.execSelfTest addr p0 p1 s
  | .heaterOff addr p0 p1 => Sys2Proof.Machine.execHeaterOff addr p0 p1 s
  | .softReset addr p0 p1 => Sys2Proof.Machine.execSoftReset addr p0 p1 s
  -- wire frames
  | .getSerialWire => Sys2Proof.Machine.execGetSerialWire s
  | .selfTestWire => Sys2Proof.Machine.execSelfTestWire s
  | .heaterOffWire => Sys2Proof.Machine.execHeaterOffWire s
  | .softResetWire => Sys2Proof.Machine.execSoftResetWire s
  | .conditionWire hum humCrc temp tempCrc => Sys2Proof.Machine.execConditionWire hum humCrc temp tempCrc s
  | .measureRawWire hum humCrc temp tempCrc => Sys2Proof.Machine.execMeasureRawWire hum humCrc temp tempCrc s
  -- primitives
  | .crc8Bit r => Sys2Proof.Machine.execCrc8Bit r s
  | .crc8Byte r b => Sys2Proof.Machine.execCrc8Byte r b s
  | .crc8 w => Sys2Proof.Machine.execCrc8 w s
  | .frame cmd payload => Sys2Proof.Machine.execFrame cmd payload s
  | .parse buf n => Sys2Proof.Machine.execParse buf n s
  -- host-side reference functions
  | .hum2tick pct => Sys2Proof.Machine.execHum2tick pct s
  | .temp2tick celsius => Sys2Proof.Machine.execTemp2tick celsius s

end Sys2Proof.Machine
end

