-- ==== Sys2Proof/Machine/Fetch.lean ====
section
/-! DEFINITION. What the next step runs: the hardware reset, an evaluation-port operand, a presented request, the frame
in TXBUF, or the operation held in OP (43_sequencer.md R100; 20_memory.md R43, R44). -/

namespace Sys2Proof.Machine

/-- What the next step does. -/
inductive Fetched where
  /-- The hardware reset (R170). -/
  | reset
  /-- No step is enabled: idle, and no request (R100). -/
  | wait
  /-- The step of an instruction. -/
  | run (i : Instr)
  /-- Bytes at the evaluation port that are no operand of its function. -/
  | bad (e : DecodeError)
  deriving DecidableEq, Repr

/-- The running operation as an instruction, from the registers the accept step latched (R17, R102). -/
def State.running (s : State) : Instr := decodeRequest ⟨s.op.sel, s.addr, s.p0, s.p1⟩

/-- What the next step does. The hardware reset comes first (R172, log entry 17); the evaluation port is always available
(R44, log entry 8); in IDLE a request is decoded; in WRITE the frame in TXBUF is what is sent (R106, log entry 9); in
every other phase the step is the running operation's (R100). -/
def fetch (s : State) : Fetched :=
  if s.rst then .reset
  else
    match s.eval with
    | some p =>
      match decode (.eval p.port) p.bytes with
      | .ok i => .run i
      | .error e => .bad e
    | none =>
      match s.phase with
      | .idle =>
        match s.req with
        | some r => .run (decodeRequest r)
        | none => .wait
      | .write =>
        match decode .wire s.txFrame with
        | .ok i => .run i
        | .error _ => .run s.running
      | .relOld | .opening | .delay | .read | .check | .relFail => .run s.running

/-- The operation whose WRITE step sends a frame: SOFT_RESET's frame goes by general call, the others by `T.write`
(R54). -/
def wireOp : Instr → Op
  | .getSerialWire => .getSerial
  | .selfTestWire => .selfTest
  | .heaterOffWire => .heaterOff
  | .softResetWire => .softReset
  | .conditionWire _ _ _ _ => .condition
  | .measureRawWire _ _ _ _ => .measureRaw
  | .beginOp _ _ _ | .endOp _ _ _ | .getSerial _ _ _ | .condition _ _ _ => .getSerial
  | .measureRaw _ _ _ | .selfTest _ _ _ | .heaterOff _ _ _ | .softReset _ _ _ => .getSerial
  | .crc8Bit _ | .crc8Byte _ _ | .crc8 _ | .frame _ _ | .parse _ _ | .hum2tick _ | .temp2tick _ => .getSerial

/-- The state with a request presented and the block ready for it. -/
def State.presentRequest (s : State) (r : Request) : State :=
  { s with rst := false, eval := none, phase := .idle, req := some r }

/-- The state with operands presented at the evaluation port. -/
def State.presentEval (s : State) (p : Presented) : State := { s with rst := false, eval := some p }

/-- The state about to send a frame: bound, in WRITE, the frame in TXBUF, an operation that sends it in OP, and the
write's answer there where none was queued (log entry 11). -/
def State.presentFrame (s : State) (f : List Byte) (op : Op) : State :=
  { (s.loadTx f) with
    rst := false, eval := none, phase := .write, bound := true, op := op,
    env := { s.env with
      writes := if s.env.writes = [] then [true] else s.env.writes,
      generals := if s.env.generals = [] then [true] else s.env.generals } }

/-- The state in which the next step runs the instruction `nbits` bits `w` stand for (log entry 11). -/
def State.presentWord (s : State) (nbits w : Nat) : State :=
  match (tablePort nbits w).1 with
  | .request =>
    match requestOfBytes (tablePort nbits w).2 with
    | .ok r => s.presentRequest r
    | .error _ => s
  | .wire =>
    match decodeWire (tablePort nbits w).2 with
    | .ok i => s.presentFrame (tablePort nbits w).2 (wireOp i)
    | .error _ => s
  | .eval e => s.presentEval ⟨e, (tablePort nbits w).2⟩

end Sys2Proof.Machine
end

