-- ==== Sys2Proof/Machine/Step.lean ====
section
/-! DEFINITION. The step of the machine (43_sequencer.md R100): what `fetch` selects, run by `exec`. -/

namespace Sys2Proof.Machine

/-- One step. Where no step is enabled the machine stays as it is (R49, R100; log entry 3). -/
def step (s : State) : Host.Outcome State Fault Refusal :=
  match fetch s with
  | .reset => .next s.hardwareReset
  | .wait => .next s
  | .run i => exec i s
  | .bad e => .refused (.undecodable e)

/-- `s` with the instruction of `nbits` bits `w` where the next step takes it from (log entry 11). -/
def State.withFetchWord (s : State) (nbits w : Nat) : State := s.presentWord nbits w

end Sys2Proof.Machine
end

