-- ==== Sys2Proof/Machine/HostSide.lean ====
section
/-! DEFINITION. The host's side of the request port: the notation of a request line and the pseudo-operations the host
expands before a request is made (30_encoding.md R60, R61; 70_reset_and_hazards.md R174). The block never sees them. -/

namespace Sys2Proof.Machine

/-- A line of a program as R60 and R61 write it: the operations with their operands, and the pseudo-operations. -/
inductive Line where
  | op (o : Op)
  | beginAt (addr : Addr)
  | conditionWith (hum temp : Word)
  | measureRawWith (hum temp : Word)
  | beginDefault
  | conditionDefault
  | measureRawDefault
  | conditionPhys (pct celsius : Float32Bits)
  | measureRawPhys (pct celsius : Float32Bits)
  deriving DecidableEq, Repr

/-- A request with every field written out (R52). -/
def requestOf (o : Op) (addr : Addr) (p0 p1 : Word) : Request := ⟨o.sel, addr, p0, p1⟩

/-- The request a line stands for (R60, R61): defaults are the host's, physical units are converted once; there is none
for a NaN (R143), nor for a bare operation that needs operands. The fields the operation ignores are 0: a DESIGN CHOICE
(log entry 26), any value may be supplied there. -/
def Line.request : Line → Option Request
  | .op .beginOp => none
  | .op .condition => none
  | .op .measureRaw => none
  | .op o => some (requestOf o 0 0 0)
  | .beginAt a => some (requestOf .beginOp a 0 0)
  | .conditionWith h t => some (requestOf .condition 0 h t)
  | .measureRawWith h t => some (requestOf .measureRaw 0 h t)
  | .beginDefault => some (requestOf .beginOp Config.defaultAddr 0 0)
  | .conditionDefault => some (requestOf .condition 0 Config.defaultHumTick Config.defaultTempTick)
  | .measureRawDefault => some (requestOf .measureRaw 0 Config.defaultHumTick Config.defaultTempTick)
  | .conditionPhys p c =>
    match humidityTicks p, temperatureTicks c with
    | some h, some t => some (requestOf .condition 0 h t)
    | _, _ => none
  | .measureRawPhys p c =>
    match humidityTicks p, temperatureTicks c with
    | some h, some t => some (requestOf .measureRaw 0 h t)
    | _, _ => none

end Sys2Proof.Machine
end

