-- ==== Sys2Proof/Safety.lean ====
section
/-! DEFINITION. What the claims speak of: the invariant of reachable states, the transition table, the calls a state may
make, and collaborators that answer. -/

namespace Sys2Proof.Machine

/-- What the accept step leaves: STATUS is OK, NWORDS and W0..W2 are zero (43_sequencer.md R101). -/
def Cleared (s : State) : Prop :=
  s.status = .ok ∧ s.nwords = 0 ∧ s.w0 = 0 ∧ s.w1 = 0 ∧ s.w2 = 0

/-- The binding that is live after a call, none if the call breaks the rule of handles: `T.open` only while none is
held, every other transport call with the handle held (R123 items 1 and 2). -/
def liveAfter : Option Handle → Event → Option (Option Handle)
  | none, .opened _ answer => some answer
  | some h, .wrote h' _ _ => if h' = h then some (some h) else none
  | some h, .wroteGeneral h' _ _ => if h' = h then some (some h) else none
  | some h, .didRead h' _ _ => if h' = h then some (some h) else none
  | some h, .released h' => if h' = h then some none else none
  | live, .slept _ => some live
  | some _, .opened _ _ => none
  | none, .wrote _ _ _ => none
  | none, .wroteGeneral _ _ _ => none
  | none, .didRead _ _ _ => none
  | none, .released _ => none

/-- The binding live after a whole trace, none if some call broke the rule of handles. -/
def replay (tr : List Event) : Option (Option Handle) := tr.foldlM liveAfter none

/-- `T.open -> ok` answers in a trace (R123 item 1). -/
def openCount (tr : List Event) : Nat :=
  tr.countP fun e => match e with
    | .opened _ (some _) => true
    | _ => false

/-- `T.release` calls in a trace (R123 item 1). -/
def releaseCount (tr : List Event) : Nat :=
  tr.countP fun e => match e with
    | .released _ => true
    | _ => false

/-- Every read comes right after a delay, which comes right after a successful write to the same handle (R123 item 3). -/
def ReadsDelayed (tr : List Event) : Prop :=
  ∀ pre h n a post, tr = pre ++ .didRead h n a :: post →
    ∃ pre' bs ms, pre = pre' ++ [.wrote h bs true, .slept ms]

/-- Which operation can end with which code (60_exceptions.md R152). -/
def allowedStatus : Op → Status → Bool
  | _, .ok => true
  | .beginOp, .eOpen => true
  | .beginOp, .eWrite => true
  | .beginOp, .eRead => true
  | .beginOp, .eCrc => true
  | .beginOp, .eIdent => true
  | .beginOp, .eNotReady => false
  | .endOp, _ => false
  | .getSerial, c | .condition, c | .measureRaw, c | .selfTest, c =>
    c == .eWrite || c == .eRead || c == .eCrc || c == .eNotReady
  | .heaterOff, c => c == .eWrite || c == .eNotReady
  | .softReset, c => c == .eNotReady

/-- W0, W1, W2 in order. -/
def State.words (s : State) : List Word := [s.w0, s.w1, s.w2]

/-- What holds between operations: the result belongs to the last operation (R12, R152, R123 items 5 and 6), and BOUND
to how it ended (R113 end states, R161). -/
structure IdleInv (s : State) : Prop where
  allowed : allowedStatus s.op s.status = true
  countOk : s.status = .ok → s.nwords.toNat = respWords s.op
  countFail : s.status ≠ .ok → s.nwords = 0
  blank0 : s.nwords.toNat ≤ 0 → s.w0 = 0
  blank1 : s.nwords.toNat ≤ 1 → s.w1 = 0
  blank2 : s.nwords.toNat ≤ 2 → s.w2 = 0
  boundBegin : s.op = .beginOp → (s.bound = true ↔ s.status = .ok)
  boundEnd : s.op = .endOp → s.bound = false
  boundChip : needsBound s.op = true → (s.bound = true ↔ s.status ≠ .eNotReady)
  ident : s.op = .beginOp → s.status = .ok → identBad s.words = false
  lastRead : s.status = .ok → respWords s.op ≠ 0 →
    ∃ pre h bs, s.trace = pre ++ [.didRead h (3 * respWords s.op) (some bs)] ∧
      bs.length = 3 * respWords s.op ∧
      scanTriplets bs (respWords s.op) = some (s.words.take (respWords s.op))

/-- What holds in each phase (R13, R104 to R112: where each phase is reached from). -/
def PhaseInv (s : State) : Prop :=
  match s.phase with
  | .idle => IdleInv s
  | .relOld => Cleared s ∧ s.bound = true ∧ (s.op = .beginOp ∨ s.op = .endOp)
  | .opening => Cleared s ∧ s.bound = false ∧ s.op = .beginOp
  | .write => Cleared s ∧ s.bound = true ∧ s.op ≠ .endOp ∧ s.txFrame = opFrame s.op s.p0 s.p1
  | .delay => Cleared s ∧ s.bound = true ∧ s.op ≠ .endOp ∧
      (s.op ≠ .softReset → ∃ pre, s.trace = pre ++ [.wrote s.hnd (opFrame s.op s.p0 s.p1) true])
  | .read => Cleared s ∧ s.bound = true ∧ respWords s.op ≠ 0 ∧
      ∃ pre bs ms, s.trace = pre ++ [.wrote s.hnd bs true, .slept ms]
  | .check => Cleared s ∧ s.bound = true ∧ respWords s.op ≠ 0 ∧ s.rxFrame.length = 3 * respWords s.op ∧
      ∃ pre, s.trace = pre ++ [.didRead s.hnd (3 * respWords s.op) (some s.rxFrame)]
  | .relFail => s.nwords = 0 ∧ s.w0 = 0 ∧ s.w1 = 0 ∧ s.w2 = 0 ∧ s.bound = true ∧ s.op = .beginOp ∧
      allowedStatus s.op s.status = true ∧ s.status ≠ .ok

/-- The invariant of the states an execution reaches from reset without a later hardware reset (R123, R172). -/
structure Inv (s : State) : Prop where
  noReset : s.rst = false
  binding : replay s.trace = some (if s.bound = true then some s.hnd else none)
  reads : ReadsDelayed s.trace
  txSize : s.txbuf.length = Config.txCap
  rxSize : s.rxbuf.length = Config.rxCap
  txLen : s.txlen.toNat ≤ Config.txCap
  rxLen : s.rxlen.toNat ≤ Config.rxCap
  phase : PhaseInv s

/-- The operands at the evaluation port, if any, are a well-formed instruction of that port. -/
def PortOk (s : State) : Prop :=
  ∀ p, s.eval = some p → ∃ i, decode (.eval p.port) p.bytes = .ok i ∧ WellFormed i = true

/-- Every collaborator call an operation can make returns (R49): as many answers are queued as one operation can take. -/
def Answered (e : Env) : Prop :=
  e.opens ≠ [] ∧ e.writes ≠ [] ∧ e.generals ≠ [] ∧ e.reads ≠ [] ∧ 2 ≤ e.releases ∧ 1 ≤ e.sleeps

/-- The transition table of PHASE (R114): `Move p b o q c` is a row from phase `p`, with BOUND `b` before the step, to
phase `q`, with OP `o` and STATUS `c` after it. -/
inductive Move : Phase → Bool → Op → Phase → Status → Prop where
  | beginBound : Move .idle true .beginOp .relOld .ok
  | beginUnbound : Move .idle false .beginOp .opening .ok
  | endBound : Move .idle true .endOp .relOld .ok
  | endUnbound : Move .idle false .endOp .idle .ok
  | chipUnbound (o : Op) : needsBound o = true → Move .idle false o .idle .eNotReady
  | chipBound (o : Op) : needsBound o = true → Move .idle true o .write .ok
  | relOldBegin : Move .relOld true .beginOp .opening .ok
  | relOldEnd : Move .relOld true .endOp .idle .ok
  | openOk : Move .opening false .beginOp .write .ok
  | openFail : Move .opening false .beginOp .idle .eOpen
  | writeDone (o : Op) : o ≠ .endOp → Move .write true o .delay .ok
  | writeFailBegin : Move .write true .beginOp .relFail .eWrite
  | writeFailOther (o : Op) : o ≠ .beginOp → o ≠ .endOp → o ≠ .softReset → Move .write true o .idle .eWrite
  | delayDone (o : Op) : o ≠ .endOp → respWords o = 0 → Move .delay true o .idle .ok
  | delayRead (o : Op) : respWords o ≠ 0 → Move .delay true o .read .ok
  | readOk (o : Op) : respWords o ≠ 0 → Move .read true o .check .ok
  | readFailBegin : Move .read true .beginOp .relFail .eRead
  | readFailOther (o : Op) : o ≠ .beginOp → respWords o ≠ 0 → Move .read true o .idle .eRead
  | checkOk (o : Op) : respWords o ≠ 0 → Move .check true o .idle .ok
  | checkCrcBegin : Move .check true .beginOp .relFail .eCrc
  | checkCrcOther (o : Op) : o ≠ .beginOp → respWords o ≠ 0 → Move .check true o .idle .eCrc
  | checkIdent : Move .check true .beginOp .relFail .eIdent
  | relFailDone (c : Status) : c ≠ .ok → Move .relFail true .beginOp .idle c

/-- The call a state makes, by phase: `T.open(ADDR)` in OPEN alone, and so on (R37 to R42). -/
def CallOf (s : State) : Event → Prop
  | .opened a _ => s.phase = .opening ∧ a = s.addr
  | .wrote h bs _ => s.phase = .write ∧ s.op ≠ .softReset ∧ h = s.hnd ∧ bs = s.txFrame
  | .wroteGeneral h bs _ => s.phase = .write ∧ s.op = .softReset ∧ h = s.hnd ∧ bs = s.txFrame
  | .didRead h n _ => s.phase = .read ∧ h = s.hnd ∧ n = 3 * respWords s.op
  | .released h => (s.phase = .relOld ∨ s.phase = .relFail) ∧ h = s.hnd
  | .slept ms => s.phase = .delay ∧ delayMs s.op = some ms

/-- The bus address a call goes to, with the binding opened at `dev` (R22, R36): the general-call address for
`T.write_general` alone (R40). -/
def Event.busAddr (dev : Addr) : Event → Option Addr
  | .opened a _ => some a
  | .wrote _ _ _ => some dev
  | .wroteGeneral _ _ _ => some Config.gcAddr
  | .didRead _ _ _ => some dev
  | .released _ => none
  | .slept _ => none

end Sys2Proof.Machine
end

