-- ==== Sys2Proof/Certificates/Slice0/Obligations.lean ====
section
/-! DEFINITION. The statements for the provers, from the numbered rules of spec/. Where a statement gives a next state
as `{ s with … }`, every field it does not name is unchanged: registers, buffers, inputs and trace. -/

open Sys2Proof Sys2Proof.Machine

/-! ### Reset and the step -/

/-- 10_state.md R27: the values after reset, and that the host cannot tell it from END on an unbound block. The values
of P0, P1, ADDR, HND and the buffers are the model's choice (log entry 4) and are not stated. -/
def Obligations.ResetHoldsTheSpecValues : Prop :=
  (State.reset.phase = .idle ∧ State.reset.busy = false ∧ State.reset.bound = false ∧ State.reset.status.code = 0 ∧
    State.reset.nwords = 0 ∧ State.reset.w0 = 0x0000#16 ∧ State.reset.w1 = 0x0000#16 ∧ State.reset.w2 = 0x0000#16 ∧
    State.reset.op.sel = 1 ∧ State.reset.stPass = false ∧ State.reset.stVocFail = false ∧
    State.reset.stNoxFail = false) ∧
  ∀ (s : State) (a : Addr) (p0 p1 : Word), s.phase = .idle → s.bound = false →
    ∃ t, exec (.endOp a p0 p1) s = .next t ∧ t.resultPort = State.reset.resultPort

/-- 70_reset_and_hazards.md R170, R171: the hardware reset takes the reset values and makes no external call, whatever
the block was doing. That it is a step of its own which comes before every other is the model's choice (log entry 17). -/
def Obligations.HardwareResetMakesNoExternalCall : Prop :=
  ∀ s : State, s.rst = true →
    ∃ t, step s = .next t ∧ t.trace = s.trace ∧ t.env = s.env ∧ t.req = s.req ∧ t.rst = false ∧
      t.phase = .idle ∧ t.bound = false ∧ t.status = .ok ∧ t.nwords = 0 ∧ t.w0 = 0 ∧ t.w1 = 0 ∧ t.w2 = 0 ∧
      t.op = .endOp

/-- A step runs the decoded instruction: the operand at the evaluation port (log entry 8), the presented request in
IDLE, the frame in TXBUF in WRITE (log entry 9), and in every busy phase the operation the registers hold. -/
def Obligations.StepRunsTheDecodedInstruction : Prop :=
  ∀ s : State, s.rst = false →
    (∀ p i, s.eval = some p → decode (.eval p.port) p.bytes = .ok i → step s = exec i s) ∧
    (s.eval = none → s.phase = .idle → ∀ r, s.req = some r → step s = exec (decodeRequest r) s) ∧
    (s.eval = none → s.phase = .idle → s.req = none → step s = .next s) ∧
    (s.eval = none → s.phase = .write → ∀ i, decode .wire s.txFrame = .ok i → step s = exec i s) ∧
    (s.eval = none → s.phase ≠ .idle →
      step s = exec (decodeRequest ⟨s.op.sel, s.addr, s.p0, s.p1⟩) s)

/-- The instruction a table word decodes to is the one the next step runs (the model's entry point, log entry 11). -/
def Obligations.FetchWordRunsTheDecodedWord : Prop :=
  ∀ (nbits w : Nat) (i : Instr), decodeTableWord nbits w = some i →
    ∀ s : State, step (s.withFetchWord nbits w) = exec i (s.withFetchWord nbits w)

/-! ### Encoding -/

/-- Words of spec/opcode_table.json and frames of 95_test_vectors.md, read by the decoder (sanity). That the 8-bit word 4
is a MEASURE_RAW request with zero operands, and no operand of CRC8_BIT, is the model's choice (log entries 5, 10). -/
def Obligations.DecodeReadsSpecWords : Prop :=
  decodeTableWord 8 4 = some (.measureRaw 0 0 0) ∧ decodeTableWord 16 0x3682 = some .getSerialWire ∧
  decodeTableWord 16 0x0006 = some .softResetWire ∧
  decodeTableWord 64 0x26198000A2666693 = some (.measureRawWire 0x8000#16 0xA2#8 0x6666#16 0x93#8) ∧
  decode (.eval .crc) [0xBE#8, 0xEF#8] = .ok (.crc8 0xBEEF#16) ∧
  decode (.eval .humidity) [0x42#8, 0x48#8, 0x00#8, 0x00#8] = .ok (.hum2tick 0x42480000#32)

/-- Every well-formed instruction is read back from its encoding, with every operand. -/
def Obligations.DecodeInvertsEncode : Prop :=
  ∀ i : Instr, WellFormed i = true → decode (portOf i) (encode i) = .ok i

/-- Bytes that decode are the encoding of what they decode to: no two encodings of one instruction, no dropped bit. -/
def Obligations.EncodeInvertsDecode : Prop :=
  ∀ (p : Port) (bs : List Byte) (i : Instr), decode p bs = .ok i → portOf i = p ∧ encode i = bs

/-- 30_encoding.md R53: the selector codes; every value of the 3-bit field is assigned. -/
def Obligations.EverySelectorNamesItsOperation : Prop :=
  (Op.beginOp.sel = 0 ∧ Op.endOp.sel = 1 ∧ Op.getSerial.sel = 2 ∧ Op.condition.sel = 3 ∧ Op.measureRaw.sel = 4 ∧
    Op.selfTest.sel = 5 ∧ Op.heaterOff.sel = 6 ∧ Op.softReset.sel = 7) ∧
  (∀ v : BitVec 3, (Op.ofSel v).sel = v) ∧ (∀ o : Op, Op.ofSel o.sel = o)

/-- 30_encoding.md R61: what the host expands the pseudo-operations to. The zeros in the fields an operation ignores are
the model's choice (log entry 26). -/
def Obligations.PseudoOperationsExpand : Prop :=
  Line.beginDefault.request = some ⟨0, 0x59#8, 0, 0⟩ ∧
  Line.conditionDefault.request = some ⟨3, 0, 0x8000#16, 0x6666#16⟩ ∧
  Line.measureRawDefault.request = some ⟨4, 0, 0x8000#16, 0x6666#16⟩ ∧
  (∀ (p c : Float32Bits) (h t : Word), humidityTicks p = some h → temperatureTicks c = some t →
    (Line.conditionPhys p c).request = some ⟨3, 0, h, t⟩ ∧ (Line.measureRawPhys p c).request = some ⟨4, 0, h, t⟩)

/-! ### The primitives -/

/-- 40_checksum.md R70: shift left, XOR with 0x31 where the top bit was set; nothing of the block changes. -/
def Obligations.Crc8BitShiftsAndXors : Prop :=
  (∀ (r : Byte) (s : State), exec (.crc8Bit r) s =
    .next { s with
      out := some (.byte (if r.getLsbD 7 = true then (r <<< 1) ^^^ 0x31#8 else r <<< 1)), eval := none }) ∧
  crc8Bit 0x00#8 = 0x00#8 ∧ crc8Bit 0x80#8 = 0x31#8 ∧ crc8Bit 0x7F#8 = 0xFE#8 ∧ crc8Bit 0xFF#8 = 0xCF#8 ∧
  crc8Bit 0xAC#8 = 0x69#8

/-- 40_checksum.md R71: the byte is XORed in whole, then exactly eight bit steps. -/
def Obligations.Crc8ByteTakesEightBitSteps : Prop :=
  (∀ (r b : Byte) (s : State), exec (.crc8Byte r b) s =
    .next { s with out := some (.byte (Nat.iterate crc8Bit 8 (r ^^^ b))), eval := none }) ∧
  crc8Byte 0x00#8 0x00#8 = 0x00#8 ∧ (∀ r b : Byte, crc8Byte r b = crc8Byte (r ^^^ b) 0x00#8) ∧
  crc8Byte 0xFF#8 0x00#8 = 0xAC#8

/-- 40_checksum.md R72: initial value 0xFF, high byte first, then low byte, no final XOR; total; with its corner cases. -/
def Obligations.Crc8TakesHighByteFirst : Prop :=
  (∀ (w : Word) (s : State), exec (.crc8 w) s =
    .next { s with
      out := some (.byte (crc8Byte (crc8Byte 0xFF#8 (w.extractLsb' 8 8)) (w.extractLsb' 0 8))), eval := none }) ∧
  checksum 0x0000#16 = 0x81#8 ∧ checksum 0xFFFF#16 = 0xAC#8 ∧ checksum 0xFF00#16 = 0x00#8 ∧
  checksum 0xA5A5#16 = 0x00#8 ∧
  (∀ b : Byte, checksum (mkWord b b) = b ↔ b = 0x2B#8)

/-- 40_checksum.md R75 item 1: the checksum is affine over XOR. -/
def Obligations.ChecksumIsXorAffine : Prop :=
  ∀ a b : Word, checksum (a ^^^ b) = checksum a ^^^ checksum b ^^^ checksum 0x0000#16

/-- 40_checksum.md R75 items 2 and 4, 42_parser.md R95 item 3: flipping one, two or three of the 24 bits of a valid
triplet makes the parser fail; some four flips go unseen. -/
def Obligations.ParserDetectsUpToThreeFlips : Prop :=
  (∀ (w : Word) (ps : List (Fin 24)), ps.Nodup → 1 ≤ ps.length → ps.length ≤ 3 →
    let e : BitVec 24 := ps.foldl (fun a p => a ^^^ (1#24 <<< p.val)) 0#24
    let v : BitVec 24 := (w ++ checksum w) ^^^ e
    parseBytes [v.extractLsb' 16 8, v.extractLsb' 8 8, v.extractLsb' 0 8] 1 = .badCrc) ∧
  parseBytes [0x00#8, 0x00#8, 0x81#8] 1 = .ok [0x0000#16] ∧ parseBytes [0x80#8, 0x00#8, 0xA2#8] 1 = .ok [0x8000#16]

/-- 41_framer.md R80, R82: the layout of a frame, for zero, one and two payload words; a longer payload is refused. -/
def Obligations.FrameLayoutAndDomain : Prop :=
  (∀ (c : Word) (s : State), exec (.frame c []) s =
    .next { s with out := some (.bytes [hiByte c, loByte c]), eval := none }) ∧
  (∀ (c a : Word) (s : State), exec (.frame c [a]) s =
    .next { s with out := some (.bytes [hiByte c, loByte c, hiByte a, loByte a, checksum a]), eval := none }) ∧
  (∀ (c a b : Word) (s : State), exec (.frame c [a, b]) s =
    .next { s with
      out := some (.bytes [hiByte c, loByte c, hiByte a, loByte a, checksum a, hiByte b, loByte b, checksum b]),
      eval := none }) ∧
  (∀ (c : Word) (pl : List Word) (s : State), 2 < pl.length →
    exec (.frame c pl) s = .refused .payloadTooLong) ∧
  frameBytes 0x2619#16 [0x8000#16, 0x6666#16] =
    [0x26#8, 0x19#8, 0x80#8, 0x00#8, 0xA2#8, 0x66#8, 0x66#8, 0x93#8]

/-- 41_framer.md R81: the length law; within the framer's domain 2, 5 or 8 bytes, and no more than TXBUF holds. -/
def Obligations.FrameLengthLaw : Prop :=
  ∀ (c : Word) (pl : List Word), (frameBytes c pl).length = 2 + 3 * pl.length ∧
    (pl.length ≤ 2 →
      ((frameBytes c pl).length = 2 ∨ (frameBytes c pl).length = 5 ∨ (frameBytes c pl).length = 8) ∧
      (frameBytes c pl).length ≤ State.reset.txbuf.length)

/-- 41_framer.md R84: dropping the command from a frame leaves `3k` bytes that parse to its payload; equal frames of one payload
count have equal command and payload. -/
def Obligations.FrameParseRoundTrip : Prop :=
  (∀ (c : Word) (pl : List Word), pl.length ≤ 2 →
    ((frameBytes c pl).drop 2).length = 3 * pl.length ∧
    parseBytes ((frameBytes c pl).drop 2) pl.length = .ok pl) ∧
  (∀ (c c' : Word) (pl pl' : List Word), pl.length = pl'.length → frameBytes c pl = frameBytes c' pl' →
    c = c' ∧ pl = pl')

/-- 42_parser.md R90, R92, R93: PARSE answers the words exactly when all `n` triplets are valid, fails when one is not,
ignores what follows, reads nothing for `n = 0`, and is refused outside its contract. -/
def Obligations.ParseAnswersWordsOrFails : Prop :=
  (∀ (ws : List Word) (rest : List Byte) (s : State), ws.length ≤ 3 →
    exec (.parse (triplets ws ++ rest) ws.length) s = .next { s with out := some (.words ws), eval := none }) ∧
  (∀ (buf : List Byte) (n : Nat) (s : State), n ≤ 3 → 3 * n ≤ buf.length →
    (∀ ws : List Word, ws.length = n → ∀ rest, buf ≠ triplets ws ++ rest) →
    exec (.parse buf n) s = .next { s with out := some .crcFail, eval := none }) ∧
  (∀ (buf : List Byte) (s : State),
    exec (.parse buf 0) s = .next { s with out := some (.words []), eval := none }) ∧
  (∀ (buf : List Byte) (n : Nat) (s : State), ¬(n ≤ 3 ∧ 3 * n ≤ buf.length) →
    exec (.parse buf n) s = .refused .parseOutside)

/-- 42_parser.md R91, R95 item 1: the words of a successful parse are those of the bytes, one by one, and every triplet
carried its checksum; otherwise no word comes back. -/
def Obligations.ParseIsExact : Prop :=
  ∀ (buf : List Byte) (n : Nat) (ws : List Word), n ≤ 3 → 3 * n ≤ buf.length →
    (parseBytes buf n = .ok ws ↔
      ws.length = n ∧ ∀ i < n, ∀ w, ws[i]? = some w →
        buf[3 * i]? = some (w.extractLsb' 8 8) ∧ buf[3 * i + 1]? = some (w.extractLsb' 0 8) ∧
          buf[3 * i + 2]? = some (checksum w))

/-- 20_memory.md R44, 40_checksum.md R74: the checksum port answers in every phase, and a running operation is
unaffected. That the answer takes a step of its own is the model's choice (log entry 8). -/
def Obligations.ChecksumPortAnswersInEveryPhase : Prop :=
  ∀ (s : State) (w : Word), s.rst = false → s.eval = some ⟨.crc, [hiByte w, loByte w]⟩ →
    step s = .next { s with out := some (.byte (checksum w)), eval := none }

/-- 20_memory.md R44, 10_state.md R19, R24: the result port while idle, the three self-test flags among its fields. That
nothing is exposed while busy is the model's choice (log entry 21). -/
def Obligations.ResultPortShowsTheResultWhileIdle : Prop :=
  (∀ s : State, s.phase = .idle →
    s.resultPort = some ⟨s.status.code, s.op.sel, s.nwords, s.w0, s.w1, s.w2, s.bound,
      decide (s.w0 = 0xD400#16), s.w0.getLsbD 0, s.w0.getLsbD 1⟩) ∧
  (∀ s : State, s.phase ≠ .idle → s.resultPort = none)

/-! ### The steps of the sequencer -/

/-- 43_sequencer.md R101: the accept step of every request, field by field. -/
def Obligations.AcceptLatchesAndSelectsThePhase : Prop :=
  ∀ (r : Request) (s : State), s.phase = .idle →
    exec (decodeRequest r) s = .next
      (let base : State :=
        { s with
          op := Op.ofSel r.opsel, p0 := r.p0, p1 := r.p1, status := .ok, nwords := 0, w0 := 0, w1 := 0, w2 := 0,
          req := none }
      match Op.ofSel r.opsel with
      | .beginOp => { base with addr := r.addr, phase := if s.bound = true then .relOld else .opening }
      | .endOp => { base with phase := if s.bound = true then .relOld else .idle }
      | o =>
        if s.bound = true then
          { base with
            txbuf := opFrame o r.p0 r.p1 ++ s.txbuf.drop (opFrame o r.p0 r.p1).length,
            txlen := BitVec.ofNat 4 (opFrame o r.p0 r.p1).length, phase := .write }
        else { base with status := .eNotReady })

/-- 60_exceptions.md R160: a chip operation requested while unbound ends in the accept step with E_NOT_READY, without
any external call. -/
def Obligations.UnboundChipOperationIsNotReady : Prop :=
  ∀ (a : Addr) (p0 p1 : Word) (s : State), s.phase = .idle → s.bound = false →
    ∀ i ∈ [Instr.getSerial a p0 p1, .condition a p0 p1, .measureRaw a p0 p1, .selfTest a p0 p1, .heaterOff a p0 p1,
      .softReset a p0 p1],
    ∃ t, exec i s = .next t ∧ t.status = .eNotReady ∧ t.status.code = 6 ∧ t.phase = .idle ∧ t.bound = false ∧
      t.trace = s.trace ∧ t.env = s.env ∧ t.nwords = 0 ∧ t.w0 = 0 ∧ t.w1 = 0 ∧ t.w2 = 0

/-- 43_sequencer.md R103: the accept step examines BOUND and nothing else of the state: from two idle states that agree
on BOUND, one request writes the same values to the same registers, leaves every other register of each as it was, and
makes no call. -/
def Obligations.AcceptExaminesOnlyBound : Prop :=
  ∀ (r : Request) (s s' : State), s.phase = .idle → s'.phase = .idle → s.bound = s'.bound →
    ∃ t t', exec (decodeRequest r) s = .next t ∧ exec (decodeRequest r) s' = .next t' ∧
      t.phase = t'.phase ∧ t.status = t'.status ∧ t.op = t'.op ∧ t.p0 = t'.p0 ∧ t.p1 = t'.p1 ∧
      t.nwords = t'.nwords ∧ t.w0 = t'.w0 ∧ t.w1 = t'.w1 ∧ t.w2 = t'.w2 ∧ t.bound = t'.bound ∧
      t.req = none ∧ t'.req = none ∧
      (r.opsel = 0 → t.addr = r.addr ∧ t'.addr = r.addr) ∧
      (r.opsel ≠ 0 → t.addr = s.addr ∧ t'.addr = s'.addr) ∧
      (t.phase = .write → t.txFrame = t'.txFrame ∧ t.txlen = t'.txlen) ∧
      (t.phase ≠ .write → t.txbuf = s.txbuf ∧ t.txlen = s.txlen ∧ t'.txbuf = s'.txbuf ∧ t'.txlen = s'.txlen) ∧
      t.bound = s.bound ∧ t.hnd = s.hnd ∧ t'.hnd = s'.hnd ∧
      t.rxbuf = s.rxbuf ∧ t.rxlen = s.rxlen ∧ t'.rxbuf = s'.rxbuf ∧ t'.rxlen = s'.rxlen ∧
      t.trace = s.trace ∧ t.env = s.env ∧ t'.trace = s'.trace ∧ t'.env = s'.env

/-- 43_sequencer.md R104: the REL_OLD step of the running operation. -/
def Obligations.RelOldReleasesTheBinding : Prop :=
  ∀ (r : Request) (s : State) (k : Nat), s.phase = .relOld → Op.ofSel r.opsel = s.op → s.env.releases = k + 1 →
    exec (decodeRequest r) s = .next
      { s with
        bound := false, phase := if s.op = .beginOp then .opening else .idle,
        env := { s.env with releases := k }, trace := s.trace ++ [.released s.hnd] }

/-- 43_sequencer.md R105: the OPEN step, for a handle and for `fail`. -/
def Obligations.OpenBindsAndFramesOrFails : Prop :=
  ∀ (a : Addr) (p0 p1 : Word) (s : State) (rest : List (Option Handle)), s.phase = .opening → s.op = .beginOp →
    s.bound = false →
    (∀ h : Handle, s.env.opens = some h :: rest →
      exec (.beginOp a p0 p1) s = .next
        { s with
          hnd := h, bound := true, txbuf := [0x36#8, 0x82#8] ++ s.txbuf.drop 2, txlen := 2, phase := .write,
          env := { s.env with opens := rest }, trace := s.trace ++ [.opened s.addr (some h)] }) ∧
    (s.env.opens = none :: rest →
      exec (.beginOp a p0 p1) s = .next
        { s with
          status := .eOpen, phase := .idle,
          env := { s.env with opens := rest }, trace := s.trace ++ [.opened s.addr none] })

/-- 43_sequencer.md R106: the WRITE step: the general call with its answer ignored for SOFT_RESET, else a write that
goes on or aborts with E_WRITE. -/
def Obligations.WriteSendsTheFrame : Prop :=
  ∀ (r : Request) (s : State), s.phase = .write → Op.ofSel r.opsel = s.op →
    (s.op = .softReset → ∀ (ok : Bool) (rest : List Bool), s.env.generals = ok :: rest →
      exec (decodeRequest r) s = .next
        { s with
          phase := .delay, env := { s.env with generals := rest },
          trace := s.trace ++ [.wroteGeneral s.hnd (s.txbuf.take s.txlen.toNat) ok] }) ∧
    (s.op ≠ .softReset → ∀ rest : List Bool, s.env.writes = true :: rest →
      exec (decodeRequest r) s = .next
        { s with
          phase := .delay, env := { s.env with writes := rest },
          trace := s.trace ++ [.wrote s.hnd (s.txbuf.take s.txlen.toNat) true] }) ∧
    (s.op ≠ .softReset → ∀ rest : List Bool, s.env.writes = false :: rest →
      exec (decodeRequest r) s = .next
        { s with
          status := .eWrite, phase := if s.op = .beginOp ∧ s.bound = true then .relFail else .idle,
          env := { s.env with writes := rest },
          trace := s.trace ++ [.wrote s.hnd (s.txbuf.take s.txlen.toNat) false] })

/-- 43_sequencer.md R107: the DELAY step: one sleep of the operation's delay, then the read, or the end for the
operations without a response. -/
def Obligations.DelaySleepsThenReadsOrEnds : Prop :=
  ∀ (r : Request) (s : State) (ms k : Nat), s.phase = .delay → Op.ofSel r.opsel = s.op →
    (s.op, ms) ∈ [(Op.beginOp, 1), (.getSerial, 1), (.condition, 50), (.measureRaw, 50), (.selfTest, 320),
      (.heaterOff, 1), (.softReset, 20)] →
    s.env.sleeps = k + 1 →
    exec (decodeRequest r) s = .next
      { s with
        phase := if s.op = .heaterOff ∨ s.op = .softReset then .idle else .read,
        env := { s.env with sleeps := k }, trace := s.trace ++ [.slept ms] }

/-- 43_sequencer.md R108, 20_memory.md R34: the READ step: one call for `3n` bytes; `fail`, and an answer of another
length (R39), abort with E_READ. -/
def Obligations.ReadFetchesTheWholeResponse : Prop :=
  ∀ (r : Request) (s : State) (n : Nat) (rest : List (Option (List Byte))), s.phase = .read →
    Op.ofSel r.opsel = s.op →
    (s.op, n) ∈ [(Op.beginOp, 3), (.getSerial, 3), (.condition, 1), (.measureRaw, 2), (.selfTest, 1)] →
    (∀ bs : List Byte, bs.length = 3 * n → s.env.reads = some bs :: rest →
      exec (decodeRequest r) s = .next
        { s with
          rxbuf := bs ++ s.rxbuf.drop (3 * n), rxlen := BitVec.ofNat 4 (3 * n), phase := .check,
          env := { s.env with reads := rest }, trace := s.trace ++ [.didRead s.hnd (3 * n) (some bs)] }) ∧
    (∀ ans : Option (List Byte), (∀ bs, ans = some bs → bs.length ≠ 3 * n) → s.env.reads = ans :: rest →
      exec (decodeRequest r) s = .next
        { s with
          status := .eRead, phase := if s.op = .beginOp ∧ s.bound = true then .relFail else .idle,
          env := { s.env with reads := rest }, trace := s.trace ++ [.didRead s.hnd (3 * n) ans] })

/-- 43_sequencer.md R109: the CHECK step: E_CRC, then for BEGIN E_IDENT, else all words are loaded. No call is made. -/
def Obligations.CheckLoadsAllWordsOrNone : Prop :=
  ∀ (r : Request) (s : State), s.phase = .check → Op.ofSel r.opsel = s.op →
    (parseBytes s.rxFrame (respWords s.op) = .badCrc →
      exec (decodeRequest r) s = .next
        { s with status := .eCrc, phase := if s.op = .beginOp ∧ s.bound = true then .relFail else .idle }) ∧
    (∀ ws, parseBytes s.rxFrame (respWords s.op) = .ok ws → s.op = .beginOp → identBad ws = true →
      exec (decodeRequest r) s = .next
        { s with status := .eIdent, phase := if s.bound = true then .relFail else .idle }) ∧
    (∀ ws, parseBytes s.rxFrame (respWords s.op) = .ok ws → (s.op = .beginOp → identBad ws = false) →
      exec (decodeRequest r) s = .next
        { s with
          w0 := ws[0]?.getD s.w0, w1 := ws[1]?.getD s.w1, w2 := ws[2]?.getD s.w2,
          nwords := BitVec.ofNat 2 (respWords s.op), phase := .idle })

/-- 43_sequencer.md R110: exactly two triples of words are rejected. -/
def Obligations.IdentityRejectsExactlyTwoTriples : Prop :=
  ∀ a b c : Word, identBad [a, b, c] = true ↔
    (a = 0x0000#16 ∧ b = 0x0000#16 ∧ c = 0x0000#16) ∨ (a = 0xFFFF#16 ∧ b = 0xFFFF#16 ∧ c = 0xFFFF#16)

/-- 43_sequencer.md R112: the REL_FAIL step: the binding is given back, STATUS keeps the failure code. -/
def Obligations.RelFailReleasesAndKeepsTheCode : Prop :=
  ∀ (a : Addr) (p0 p1 : Word) (s : State) (k : Nat), s.phase = .relFail → s.op = .beginOp → s.env.releases = k + 1 →
    exec (.beginOp a p0 p1) s = .next
      { s with
        bound := false, phase := .idle, env := { s.env with releases := k },
        trace := s.trace ++ [.released s.hnd] }

/-- 60_exceptions.md R155: a step of a running operation that changes STATUS is an abort: it writes STATUS and PHASE
and nothing else, but for the call it has made. -/
def Obligations.AbortWritesStatusAndPhaseOnly : Prop :=
  ∀ s t : State, s.rst = false → s.eval = none → s.phase ≠ .idle → step s = .next t → t.status ≠ s.status →
    t = { s with
      status := t.status, phase := if s.op = .beginOp ∧ s.bound = true then .relFail else .idle,
      env := t.env, trace := t.trace }

/-- 20_memory.md R49: a collaborator that never answers leaves the block in its phase for ever; there is no timeout. -/
def Obligations.SilentCollaboratorStallsTheBlock : Prop :=
  ∀ s : State, s.rst = false → s.eval = none →
    (s.phase = .relOld ∧ s.env.releases = 0 ∨ s.phase = .relFail ∧ s.env.releases = 0 ∨
      s.phase = .opening ∧ s.env.opens = [] ∨
      s.phase = .write ∧ s.op = .softReset ∧ s.env.generals = [] ∨
      s.phase = .write ∧ s.op ≠ .softReset ∧ s.env.writes = [] ∨
      s.phase = .delay ∧ s.op ≠ .endOp ∧ s.env.sleeps = 0 ∨
      s.phase = .read ∧ respWords s.op ≠ 0 ∧ s.env.reads = []) →
    ∀ k, Sys2Proof.core.run k s = .next s

/-- 43_sequencer.md R102: while an operation runs, what stands at the request port changes nothing but itself. -/
def Obligations.RequestPortIgnoredWhileBusy : Prop :=
  ∀ (s t : State) (q : Option Request), s.rst = false → s.eval = none → s.phase ≠ .idle → step s = .next t →
    t.req = s.req ∧ step { s with req := q } = .next { t with req := q }

/-- 20_memory.md R43: a request for another operation than the running one has no effect. -/
def Obligations.OtherRequestWhileBusyHasNoEffect : Prop :=
  ∀ (r : Request) (s : State), s.phase ≠ .idle → Op.ofSel r.opsel ≠ s.op → exec (decodeRequest r) s = .next s

/-! ### The wire frames -/

/-- 20_memory.md R33, 43_sequencer.md R106: each of the six frames, when it stands in TXBUF in WRITE, is sent by exactly
one call with all its bytes in order; the answer of the general call is ignored. -/
def Obligations.WireFrameIsSentInOneCall : Prop :=
  ∀ (i : Instr) (s : State), s.phase = .write → s.txbuf.take s.txlen.toNat = encode i →
    (i = .getSerialWire ∨ i = .selfTestWire ∨ i = .heaterOffWire ∨ i = .softResetWire ∨
      (∃ h x t y, i = .conditionWire h x t y) ∨ (∃ h x t y, i = .measureRawWire h x t y)) →
    (s.op = .softReset → ∀ (ok : Bool) (rest : List Bool), s.env.generals = ok :: rest →
      exec i s = .next
        { s with
          phase := .delay, env := { s.env with generals := rest },
          trace := s.trace ++ [.wroteGeneral s.hnd (encode i) ok] }) ∧
    (s.op ≠ .softReset → ∀ rest : List Bool, s.env.writes = true :: rest →
      exec i s = .next
        { s with
          phase := .delay, env := { s.env with writes := rest },
          trace := s.trace ++ [.wrote s.hnd (encode i) true] })

/-- The model's choice (log entry 9): a frame that is not the one in TXBUF, or outside WRITE, is not sent. -/
def Obligations.FrameNotInTxbufIsNotSent : Prop :=
  ∀ (i : Instr) (s : State), portOf i = .wire → ¬(s.phase = .write ∧ s.txFrame = encode i) → exec i s = .next s

/-! ### Whole operations

Each names the request, the answers of the collaborators and the state in which the operation has ended: `exec` accepts
it, the remaining steps are the machine's. -/

/-- 43_sequencer.md R115 with OK: BEGIN on an unbound block opens, reads the serial number and is bound. -/
def Obligations.BeginBindsAndLeavesTheSerial : Prop :=
  ∀ (s : State) (a : Addr) (p0 p1 x y z : Word) (h : Handle) (os : List (Option Handle)) (ws : List Bool)
    (rs : List (Option (List Byte))) (k : Nat),
    s.rst = false → s.eval = none → s.phase = .idle → s.bound = false →
    s.env.opens = some h :: os → s.env.writes = true :: ws → s.env.sleeps = k + 1 →
    s.env.reads = some [hiByte x, loByte x, checksum x, hiByte y, loByte y, checksum y, hiByte z, loByte z, checksum z]
      :: rs →
    identBad [x, y, z] = false →
    ∃ u, exec (.beginOp a p0 p1) s = .next u ∧ Sys2Proof.core.run 5 u = .next
      { s with
        op := .beginOp, p0 := p0, p1 := p1, addr := a, hnd := h, bound := true, status := .ok, nwords := 3,
        w0 := x, w1 := y, w2 := z, phase := .idle, req := none,
        txbuf := [0x36#8, 0x82#8] ++ s.txbuf.drop 2, txlen := 2,
        rxbuf := [hiByte x, loByte x, checksum x, hiByte y, loByte y, checksum y, hiByte z, loByte z, checksum z]
          ++ s.rxbuf.drop 9, rxlen := 9,
        env := { s.env with opens := os, writes := ws, sleeps := k, reads := rs },
        trace := s.trace ++
          [.opened a (some h), .wrote h [0x36#8, 0x82#8] true, .slept 1,
            .didRead h 9 (some [hiByte x, loByte x, checksum x, hiByte y, loByte y, checksum y, hiByte z, loByte z,
              checksum z])] }

/-- 43_sequencer.md R104, R113: BEGIN while bound releases first and then goes on as BEGIN on an unbound block does. -/
def Obligations.BeginWhileBoundReleasesFirst : Prop :=
  ∀ (s : State) (r : Request) (k : Nat), s.rst = false → s.eval = none → s.phase = .idle → s.bound = true →
    s.req = some r → r.opsel = 0 → s.env.releases = k + 1 →
    ∃ u, Sys2Proof.core.run 2 s = .next u ∧
      step { s with
        bound := false, env := { s.env with releases := k }, trace := s.trace ++ [.released s.hnd] } = .next u

/-- 43_sequencer.md R116: END releases the binding where there is one; either way it ends with OK. -/
def Obligations.EndReleasesTheBinding : Prop :=
  ∀ (s : State) (a : Addr) (p0 p1 : Word), s.rst = false → s.eval = none → s.phase = .idle →
    (s.bound = false → exec (.endOp a p0 p1) s = .next
      { s with op := .endOp, p0 := p0, p1 := p1, status := .ok, nwords := 0, w0 := 0, w1 := 0, w2 := 0, req := none }) ∧
    (s.bound = true → ∀ k, s.env.releases = k + 1 →
      ∃ u, exec (.endOp a p0 p1) s = .next u ∧ Sys2Proof.core.run 1 u = .next
        { s with
          op := .endOp, p0 := p0, p1 := p1, status := .ok, nwords := 0, w0 := 0, w1 := 0, w2 := 0, req := none,
          bound := false, env := { s.env with releases := k }, trace := s.trace ++ [.released s.hnd] })

/-- 43_sequencer.md R117 with OK: GET_SERIAL returns three words in wire order, whatever they are. -/
def Obligations.GetSerialReturnsThreeWords : Prop :=
  ∀ (s : State) (a : Addr) (p0 p1 x y z : Word) (ws : List Bool) (rs : List (Option (List Byte))) (k : Nat),
    s.rst = false → s.eval = none → s.phase = .idle → s.bound = true →
    s.env.writes = true :: ws → s.env.sleeps = k + 1 →
    s.env.reads = some [hiByte x, loByte x, checksum x, hiByte y, loByte y, checksum y, hiByte z, loByte z, checksum z]
      :: rs →
    ∃ u, exec (.getSerial a p0 p1) s = .next u ∧ Sys2Proof.core.run 4 u = .next
      { s with
        op := .getSerial, p0 := p0, p1 := p1, status := .ok, nwords := 3, w0 := x, w1 := y, w2 := z, phase := .idle,
        req := none, txbuf := [0x36#8, 0x82#8] ++ s.txbuf.drop 2, txlen := 2,
        rxbuf := [hiByte x, loByte x, checksum x, hiByte y, loByte y, checksum y, hiByte z, loByte z, checksum z]
          ++ s.rxbuf.drop 9, rxlen := 9,
        env := { s.env with writes := ws, sleeps := k, reads := rs },
        trace := s.trace ++
          [.wrote s.hnd [0x36#8, 0x82#8] true, .slept 1,
            .didRead s.hnd 9 (some [hiByte x, loByte x, checksum x, hiByte y, loByte y, checksum y, hiByte z, loByte z,
              checksum z])] }

/-- 43_sequencer.md R118 with OK: CONDITION frames humidity then temperature and returns one word. -/
def Obligations.ConditionReturnsOneWord : Prop :=
  ∀ (s : State) (a : Addr) (hum temp v : Word) (ws : List Bool) (rs : List (Option (List Byte))) (k : Nat),
    s.rst = false → s.eval = none → s.phase = .idle → s.bound = true →
    s.env.writes = true :: ws → s.env.sleeps = k + 1 →
    s.env.reads = some [hiByte v, loByte v, checksum v] :: rs →
    ∃ u, exec (.condition a hum temp) s = .next u ∧ Sys2Proof.core.run 4 u = .next
      { s with
        op := .condition, p0 := hum, p1 := temp, status := .ok, nwords := 1, w0 := v, w1 := 0, w2 := 0,
        phase := .idle, req := none,
        txbuf := [0x26#8, 0x12#8, hiByte hum, loByte hum, checksum hum, hiByte temp, loByte temp, checksum temp]
          ++ s.txbuf.drop 8, txlen := 8,
        rxbuf := [hiByte v, loByte v, checksum v] ++ s.rxbuf.drop 3, rxlen := 3,
        env := { s.env with writes := ws, sleeps := k, reads := rs },
        trace := s.trace ++
          [.wrote s.hnd [0x26#8, 0x12#8, hiByte hum, loByte hum, checksum hum, hiByte temp, loByte temp,
              checksum temp] true,
            .slept 50, .didRead s.hnd 3 (some [hiByte v, loByte v, checksum v])] }

/-- 43_sequencer.md R119 with OK: MEASURE_RAW frames humidity then temperature and returns two words. -/
def Obligations.MeasureRawReturnsTwoWords : Prop :=
  ∀ (s : State) (a : Addr) (hum temp v x : Word) (ws : List Bool) (rs : List (Option (List Byte))) (k : Nat),
    s.rst = false → s.eval = none → s.phase = .idle → s.bound = true →
    s.env.writes = true :: ws → s.env.sleeps = k + 1 →
    s.env.reads = some [hiByte v, loByte v, checksum v, hiByte x, loByte x, checksum x] :: rs →
    ∃ u, exec (.measureRaw a hum temp) s = .next u ∧ Sys2Proof.core.run 4 u = .next
      { s with
        op := .measureRaw, p0 := hum, p1 := temp, status := .ok, nwords := 2, w0 := v, w1 := x, w2 := 0,
        phase := .idle, req := none,
        txbuf := [0x26#8, 0x19#8, hiByte hum, loByte hum, checksum hum, hiByte temp, loByte temp, checksum temp]
          ++ s.txbuf.drop 8, txlen := 8,
        rxbuf := [hiByte v, loByte v, checksum v, hiByte x, loByte x, checksum x] ++ s.rxbuf.drop 6, rxlen := 6,
        env := { s.env with writes := ws, sleeps := k, reads := rs },
        trace := s.trace ++
          [.wrote s.hnd [0x26#8, 0x19#8, hiByte hum, loByte hum, checksum hum, hiByte temp, loByte temp,
              checksum temp] true,
            .slept 50, .didRead s.hnd 6 (some [hiByte v, loByte v, checksum v, hiByte x, loByte x, checksum x])] }

/-- 43_sequencer.md R120 with OK: SELF_TEST returns its word unchanged, and the flags at the result port follow it. -/
def Obligations.SelfTestReturnsItsWord : Prop :=
  ∀ (s : State) (a : Addr) (p0 p1 v : Word) (ws : List Bool) (rs : List (Option (List Byte))) (k : Nat),
    s.rst = false → s.eval = none → s.phase = .idle → s.bound = true →
    s.env.writes = true :: ws → s.env.sleeps = k + 1 →
    s.env.reads = some [hiByte v, loByte v, checksum v] :: rs →
    ∃ u t, exec (.selfTest a p0 p1) s = .next u ∧ Sys2Proof.core.run 4 u = .next t ∧
      t = { s with
        op := .selfTest, p0 := p0, p1 := p1, status := .ok, nwords := 1, w0 := v, w1 := 0, w2 := 0,
        phase := .idle, req := none, txbuf := [0x28#8, 0x0E#8] ++ s.txbuf.drop 2, txlen := 2,
        rxbuf := [hiByte v, loByte v, checksum v] ++ s.rxbuf.drop 3, rxlen := 3,
        env := { s.env with writes := ws, sleeps := k, reads := rs },
        trace := s.trace ++
          [.wrote s.hnd [0x28#8, 0x0E#8] true, .slept 320,
            .didRead s.hnd 3 (some [hiByte v, loByte v, checksum v])] } ∧
      t.resultPort = some ⟨0, 5, 1, v, 0, 0, true, decide (v = 0xD400#16), v.getLsbD 0, v.getLsbD 1⟩

/-- 43_sequencer.md R121: HEATER_OFF writes, waits and reads nothing; a failed write ends it with E_WRITE. -/
def Obligations.HeaterOffWritesAndWaits : Prop :=
  ∀ (s : State) (a : Addr) (p0 p1 : Word) (ws : List Bool) (k : Nat),
    s.rst = false → s.eval = none → s.phase = .idle → s.bound = true →
    (s.env.writes = true :: ws → s.env.sleeps = k + 1 →
      ∃ u, exec (.heaterOff a p0 p1) s = .next u ∧ Sys2Proof.core.run 2 u = .next
        { s with
          op := .heaterOff, p0 := p0, p1 := p1, status := .ok, nwords := 0, w0 := 0, w1 := 0, w2 := 0,
          phase := .idle, req := none, txbuf := [0x36#8, 0x15#8] ++ s.txbuf.drop 2, txlen := 2,
          env := { s.env with writes := ws, sleeps := k },
          trace := s.trace ++ [.wrote s.hnd [0x36#8, 0x15#8] true, .slept 1] }) ∧
    (s.env.writes = false :: ws →
      ∃ u, exec (.heaterOff a p0 p1) s = .next u ∧ Sys2Proof.core.run 1 u = .next
        { s with
          op := .heaterOff, p0 := p0, p1 := p1, status := .eWrite, nwords := 0, w0 := 0, w1 := 0, w2 := 0,
          phase := .idle, req := none, txbuf := [0x36#8, 0x15#8] ++ s.txbuf.drop 2, txlen := 2,
          env := { s.env with writes := ws }, trace := s.trace ++ [.wrote s.hnd [0x36#8, 0x15#8] false] })

/-- 43_sequencer.md R122: SOFT_RESET makes one general call to address 0x00, waits, and ends with OK whatever the
answer; ADDR, HND and BOUND stay. -/
def Obligations.SoftResetIgnoresTheAnswer : Prop :=
  ∀ (s : State) (a : Addr) (p0 p1 : Word) (ok : Bool) (gs : List Bool) (k : Nat),
    s.rst = false → s.eval = none → s.phase = .idle → s.bound = true →
    s.env.generals = ok :: gs → s.env.sleeps = k + 1 →
    (∃ u, exec (.softReset a p0 p1) s = .next u ∧ Sys2Proof.core.run 2 u = .next
      { s with
        op := .softReset, p0 := p0, p1 := p1, status := .ok, nwords := 0, w0 := 0, w1 := 0, w2 := 0,
        phase := .idle, req := none, txbuf := [0x00#8, 0x06#8] ++ s.txbuf.drop 2, txlen := 2,
        env := { s.env with generals := gs, sleeps := k },
        trace := s.trace ++ [.wroteGeneral s.hnd [0x00#8, 0x06#8] ok, .slept 20] }) ∧
    (Event.wroteGeneral s.hnd [0x00#8, 0x06#8] ok).busAddr s.addr = some 0x00#8

/-- 43_sequencer.md R113: the trace and the end state of the four operations that read a response, by outcome. `n` is
the response count, `d` the delay, `opFrame` the frame (R113: F). -/
def Obligations.ReadingOperationByOutcome : Prop :=
  ∀ (s : State) (r : Request) (o : Op) (d n : Nat) (wok : Bool) (ws : List Bool) (ans : Option (List Byte))
    (rs : List (Option (List Byte))) (k : Nat),
    s.rst = false → s.eval = none → s.phase = .idle → s.bound = true → s.req = some r → Op.ofSel r.opsel = o →
    (o, d, n) ∈ [(Op.getSerial, 1, 3), (.condition, 50, 1), (.measureRaw, 50, 2), (.selfTest, 320, 1)] →
    s.env.writes = wok :: ws → s.env.sleeps = k + 1 → s.env.reads = ans :: rs →
    ∃ steps t, Sys2Proof.core.run steps s = .next t ∧ t.phase = .idle ∧ t.op = o ∧ t.bound = true ∧ t.hnd = s.hnd ∧
      t.addr = s.addr ∧
      (wok = false → steps = 2 ∧ t.status = .eWrite ∧ t.nwords = 0 ∧ t.words = [0, 0, 0] ∧
        t.trace = s.trace ++ [.wrote s.hnd (opFrame o r.p0 r.p1) false]) ∧
      (wok = true → (∀ bs, ans = some bs → bs.length ≠ 3 * n) →
        steps = 4 ∧ t.status = .eRead ∧ t.nwords = 0 ∧ t.words = [0, 0, 0] ∧
        t.trace = s.trace ++ [.wrote s.hnd (opFrame o r.p0 r.p1) true, .slept d, .didRead s.hnd (3 * n) ans]) ∧
      (∀ bs, wok = true → ans = some bs → bs.length = 3 * n → parseBytes bs n = .badCrc →
        steps = 5 ∧ t.status = .eCrc ∧ t.nwords = 0 ∧ t.words = [0, 0, 0] ∧
        t.trace = s.trace ++ [.wrote s.hnd (opFrame o r.p0 r.p1) true, .slept d, .didRead s.hnd (3 * n) ans]) ∧
      (∀ bs vs, wok = true → ans = some bs → bs.length = 3 * n → parseBytes bs n = .ok vs →
        steps = 5 ∧ t.status = .ok ∧ t.nwords = BitVec.ofNat 2 n ∧
        t.words = vs ++ List.replicate (3 - n) 0 ∧
        t.trace = s.trace ++ [.wrote s.hnd (opFrame o r.p0 r.p1) true, .slept d, .didRead s.hnd (3 * n) ans])

/-- 43_sequencer.md R113: the trace and the end state of BEGIN on an unbound block, by outcome. -/
def Obligations.BeginByOutcome : Prop :=
  ∀ (s : State) (r : Request) (oa : Option Handle) (os : List (Option Handle)) (wok : Bool) (ws : List Bool)
    (ans : Option (List Byte)) (rs : List (Option (List Byte))) (k m : Nat),
    s.rst = false → s.eval = none → s.phase = .idle → s.bound = false → s.req = some r → r.opsel = 0 →
    s.env.opens = oa :: os → s.env.writes = wok :: ws → s.env.sleeps = k + 1 → s.env.reads = ans :: rs →
    s.env.releases = m + 1 →
    ∃ steps t, Sys2Proof.core.run steps s = .next t ∧ t.phase = .idle ∧ t.op = .beginOp ∧ t.addr = r.addr ∧
      (oa = none → steps = 2 ∧ t.status = .eOpen ∧ t.bound = false ∧ t.nwords = 0 ∧ t.words = [0, 0, 0] ∧
        t.trace = s.trace ++ [.opened r.addr none]) ∧
      (∀ h, oa = some h → wok = false →
        steps = 4 ∧ t.status = .eWrite ∧ t.bound = false ∧ t.nwords = 0 ∧ t.words = [0, 0, 0] ∧
        t.trace = s.trace ++ [.opened r.addr (some h), .wrote h [0x36#8, 0x82#8] false, .released h]) ∧
      (∀ h, oa = some h → wok = true → (∀ bs, ans = some bs → bs.length ≠ 9) →
        steps = 6 ∧ t.status = .eRead ∧ t.bound = false ∧ t.nwords = 0 ∧ t.words = [0, 0, 0] ∧
        t.trace = s.trace ++ [.opened r.addr (some h), .wrote h [0x36#8, 0x82#8] true, .slept 1, .didRead h 9 ans,
          .released h]) ∧
      (∀ h bs, oa = some h → wok = true → ans = some bs → bs.length = 9 → parseBytes bs 3 = .badCrc →
        steps = 7 ∧ t.status = .eCrc ∧ t.bound = false ∧ t.nwords = 0 ∧ t.words = [0, 0, 0] ∧
        t.trace = s.trace ++ [.opened r.addr (some h), .wrote h [0x36#8, 0x82#8] true, .slept 1, .didRead h 9 ans,
          .released h]) ∧
      (∀ h bs vs, oa = some h → wok = true → ans = some bs → bs.length = 9 → parseBytes bs 3 = .ok vs →
        identBad vs = true →
        steps = 7 ∧ t.status = .eIdent ∧ t.bound = false ∧ t.nwords = 0 ∧ t.words = [0, 0, 0] ∧
        t.trace = s.trace ++ [.opened r.addr (some h), .wrote h [0x36#8, 0x82#8] true, .slept 1, .didRead h 9 ans,
          .released h]) ∧
      (∀ h bs vs, oa = some h → wok = true → ans = some bs → bs.length = 9 → parseBytes bs 3 = .ok vs →
        identBad vs = false →
        steps = 6 ∧ t.status = .ok ∧ t.bound = true ∧ t.hnd = h ∧ t.nwords = 3 ∧ t.words = vs ∧
        t.trace = s.trace ++ [.opened r.addr (some h), .wrote h [0x36#8, 0x82#8] true, .slept 1, .didRead h 9 ans])

/-! ### The host-side reference functions -/

/-- 44_unit_converter.md R140, R142, R143: HUM2TICK clamps to [0, 100] and rounds half up, exactly, without wrapping;
infinities clamp, a NaN is refused. The binary32 layout behind `real32` is presumed (log entry 15). -/
def Obligations.HumidityClampsAndRoundsHalfUp : Prop :=
  ∀ (b : Float32Bits) (s : State),
    (∀ x, real32 b = .finite x → ∃ t : Word,
      (t.toNat : ℤ) = ⌊min 100 (max 0 ((x.num : ℚ) / x.den)) * 65535 / 100 + 1 / 2⌋ ∧
      exec (.hum2tick b) s = .next { s with out := some (.word t), eval := none }) ∧
    (real32 b = .posInf → exec (.hum2tick b) s = .next { s with out := some (.word 0xFFFF#16), eval := none }) ∧
    (real32 b = .negInf → exec (.hum2tick b) s = .next { s with out := some (.word 0x0000#16), eval := none }) ∧
    (real32 b = .nan → exec (.hum2tick b) s = .refused .nanOperand)

/-- 44_unit_converter.md R141, R142, R143: TEMP2TICK clamps to [-45, 130] and rounds half up, exactly, without
wrapping; infinities clamp, a NaN is refused. The binary32 layout behind `real32` is presumed (log entry 15). -/
def Obligations.TemperatureClampsAndRoundsHalfUp : Prop :=
  ∀ (b : Float32Bits) (s : State),
    (∀ x, real32 b = .finite x → ∃ t : Word,
      (t.toNat : ℤ) = ⌊(min 130 (max (-45) ((x.num : ℚ) / x.den)) + 45) * 65535 / 175 + 1 / 2⌋ ∧
      exec (.temp2tick b) s = .next { s with out := some (.word t), eval := none }) ∧
    (real32 b = .posInf → exec (.temp2tick b) s = .next { s with out := some (.word 0xFFFF#16), eval := none }) ∧
    (real32 b = .negInf → exec (.temp2tick b) s = .next { s with out := some (.word 0x0000#16), eval := none }) ∧
    (real32 b = .nan → exec (.temp2tick b) s = .refused .nanOperand)

/-! ### The whole machine -/

/-- The reset state meets the invariant. -/
def Obligations.ResetMeetsTheInvariant : Prop := Inv State.reset

/-- 43_sequencer.md R123: every step keeps the invariant: handles are used by the rule, reads come after their delay,
failures leave no word, BOUND goes with how the last operation ended, TXBUF holds the frame of OP in WRITE. -/
def Obligations.StepKeepsTheInvariant : Prop :=
  ∀ s t : State, Inv s → step s = .next t → Inv t

/-- From the invariant no step stops: the machine's faults and refusals cannot arise, unless operands outside a
function's contract stand at the evaluation port. -/
def Obligations.InvariantStateAlwaysSteps : Prop :=
  ∀ s : State, Inv s → PortOk s → ∃ t, step s = .next t

/-- 43_sequencer.md R123 item 1: BOUND is the number of successful opens minus the number of releases. -/
def Obligations.BoundCountsOpensMinusReleases : Prop :=
  ∀ s : State, Inv s → openCount s.trace = releaseCount s.trace + (if s.bound = true then 1 else 0)

/-- 43_sequencer.md R114: from the invariant every change of PHASE is a row of the transition table, or the block
waits. -/
def Obligations.EveryStepIsARowOfTheTransitionTable : Prop :=
  ∀ s t : State, Inv s → s.eval = none → step s = .next t →
    t = s ∨ Move s.phase s.bound t.op t.phase t.status

/-- 43_sequencer.md R114: an accepted operation has ended within eight steps, provided every collaborator call
returns. -/
def Obligations.OperationEndsWithinEightSteps : Prop :=
  ∀ (s : State) (r : Request), Inv s → s.phase = .idle → s.eval = none → s.req = some r → Answered s.env →
    ∃ k t, 1 ≤ k ∧ k ≤ 8 ∧ Sys2Proof.core.run k s = .next t ∧ t.phase = .idle ∧ t.req = none ∧
      t.op = Op.ofSel r.opsel ∧ allowedStatus t.op t.status = true

/-- 20_memory.md R37 to R42, R45: a step makes at most one call, and it is the call of its phase with the arguments the
registers hold. -/
def Obligations.EachStepMakesAtMostItsPhasesCall : Prop :=
  ∀ s t : State, step s = .next t →
    t.trace = s.trace ∨ ∃ e, t.trace = s.trace ++ [e] ∧ CallOf s e

/-- 10_state.md R28: which step writes which register, in every state without a hardware reset. STATUS is written by the
accept step and by the step that fails, each with its code; PHASE by sequencer steps alone, and by each of them that
makes a call, or checks. -/
def Obligations.EachRegisterHasItsWriters : Prop :=
  ∀ s t : State, s.rst = false → step s = .next t →
    (t.p0 ≠ s.p0 ∨ t.p1 ≠ s.p1 ∨ t.op ≠ s.op → s.phase = .idle ∧ s.req ≠ none) ∧
    (t.addr ≠ s.addr → s.phase = .idle ∧ ∃ r, s.req = some r ∧ r.opsel = 0 ∧ t.addr = r.addr) ∧
    (t.w0 ≠ s.w0 ∨ t.w1 ≠ s.w1 ∨ t.w2 ≠ s.w2 ∨ t.nwords ≠ s.nwords → s.phase = .idle ∨ s.phase = .check) ∧
    (t.bound = true → s.bound = false → s.phase = .opening) ∧
    (t.bound = false → s.bound = true → s.phase = .relOld ∨ s.phase = .relFail) ∧
    (t.hnd ≠ s.hnd → s.phase = .opening) ∧
    (t.txbuf ≠ s.txbuf ∨ t.txlen ≠ s.txlen → s.phase = .idle ∨ s.phase = .opening) ∧
    (t.rxbuf ≠ s.rxbuf ∨ t.rxlen ≠ s.rxlen → s.phase = .read) ∧
    (t.status ≠ s.status →
      s.phase = .idle ∧ s.req ≠ none ∧ (t.status = .ok ∨ t.status = .eNotReady) ∨
      s.phase = .opening ∧ t.status = .eOpen ∨ s.phase = .write ∧ t.status = .eWrite ∨
      s.phase = .read ∧ t.status = .eRead ∨ s.phase = .check ∧ (t.status = .eCrc ∨ t.status = .eIdent)) ∧
    (t.phase ≠ s.phase → s.eval = none ∧ (s.phase = .idle → s.req ≠ none)) ∧
    (t.trace ≠ s.trace → t.phase ≠ s.phase) ∧
    (s.eval = none → s.phase = .check → t.phase ≠ s.phase)

/-- 10_state.md R20, R21: loading a buffer writes its first bytes and no other byte of it. For TXBUF R20 says so; that
the bytes of RXBUF beyond RXLEN are kept is the model's reading (DEDUCED, log entry 23). -/
def Obligations.BufferLoadsKeepTheBytesBeyond : Prop :=
  ∀ (s : State) (f : List Byte),
    (f.length ≤ 8 → s.txbuf.length = 8 → (s.loadTx f).txFrame = f ∧ (s.loadTx f).txlen.toNat = f.length ∧
      (s.loadTx f).txbuf.length = 8 ∧ ∀ i, f.length ≤ i → (s.loadTx f).txByte i = s.txByte i) ∧
    (f.length ≤ 9 → s.rxbuf.length = 9 → (s.loadRx f).rxFrame = f ∧ (s.loadRx f).rxlen.toNat = f.length ∧
      (s.loadRx f).rxbuf.length = 9 ∧ ∀ i, f.length ≤ i → (s.loadRx f).rxByte i = s.rxByte i)
end

