-- ==== Sys2Proof/Laws/Codec.lean ====
section
/-! SUPPORT. Laws of the byte helpers, the selector codes, the framer and the parser. -/

namespace Sys2Proof.Machine

/-! ### Words and bytes -/

@[simp] theorem mkWord_hi_lo (w : Word) : mkWord (hiByte w) (loByte w) = w := by
  apply BitVec.eq_of_getLsbD_eq
  intro i hi
  simp only [mkWord, hiByte, loByte, BitVec.getLsbD_append, BitVec.getLsbD_extractLsb']
  split
  · rename_i h; simp [h]
  · rename_i h; simp only [show i - 8 < 8 by omega, decide_true, Bool.true_and]; congr 1; omega

@[simp] theorem hiByte_mkWord (h l : Byte) : hiByte (mkWord h l) = h := by
  apply BitVec.eq_of_getLsbD_eq
  intro i hi
  simp only [mkWord, hiByte, BitVec.getLsbD_extractLsb', BitVec.getLsbD_append, hi, decide_true, Bool.true_and]
  rw [if_neg (by omega)]
  congr 1; omega

@[simp] theorem loByte_mkWord (h l : Byte) : loByte (mkWord h l) = l := by
  apply BitVec.eq_of_getLsbD_eq
  intro i hi
  simp only [mkWord, loByte, BitVec.getLsbD_extractLsb', BitVec.getLsbD_append, hi, decide_true, Bool.true_and]
  rw [if_pos (by omega)]
  congr 1; omega

/-- A word is determined by its two bytes. -/
theorem mkWord_inj {a b c d : Byte} (h : mkWord a b = mkWord c d) : a = c ∧ b = d := by
  constructor
  · simpa using congrArg hiByte h
  · simpa using congrArg loByte h

/-! ### Triplets -/

@[simp] theorem triplets_nil : triplets [] = [] := rfl

@[simp] theorem triplets_cons (w : Word) (ws : List Word) :
    triplets (w :: ws) = hiByte w :: loByte w :: checksum w :: triplets ws := rfl

@[simp] theorem length_triplets (ws : List Word) : (triplets ws).length = 3 * ws.length := by
  induction ws with
  | nil => rfl
  | cons w ws ih => simp only [triplets_cons, List.length_cons, ih]; omega

@[simp] theorem scanTriplets_zero (buf : List Byte) : scanTriplets buf 0 = some [] := by
  cases buf <;> rfl

theorem scanTriplets_cons (hi lo crc : Byte) (rest : List Byte) (n : Nat) :
    scanTriplets (hi :: lo :: crc :: rest) (n + 1) =
      if checksum (mkWord hi lo) = crc then (scanTriplets rest n).map (mkWord hi lo :: ·) else none := rfl

/-- Scanning the triplets of some words, with any bytes after them, gives the words. -/
@[simp] theorem scanTriplets_triplets (ws : List Word) (rest : List Byte) :
    scanTriplets (triplets ws ++ rest) ws.length = some ws := by
  induction ws with
  | nil => simp
  | cons w ws ih => simp [scanTriplets_cons, ih]

/-- A scan that succeeds has read exactly the triplets of the words it answers. -/
theorem scanTriplets_some {buf : List Byte} {n : Nat} {ws : List Word} (h : scanTriplets buf n = some ws) :
    ws.length = n ∧ ∃ rest, buf = triplets ws ++ rest := by
  induction n generalizing buf ws with
  | zero =>
    rw [scanTriplets_zero] at h
    cases h
    exact ⟨rfl, buf, rfl⟩
  | succ n ih =>
    match buf, h with
    | hi :: lo :: crc :: rest, h =>
      rw [scanTriplets_cons] at h
      split at h
      · rename_i hc
        obtain ⟨vs, hv, rfl⟩ := Option.map_eq_some_iff.mp h
        obtain ⟨hl, tl, rfl⟩ := ih hv
        exact ⟨by simp [hl], tl, by simp [hc]⟩
      · cases h
    | [], h => cases h
    | [_], h => cases h
    | [_, _], h => cases h

/-- A scan inside the contract that fails does so for a triplet whose checksum byte differs. -/
theorem scanTriplets_none_length {buf : List Byte} {n : Nat} (hl : 3 * n ≤ buf.length)
    (h : scanTriplets buf n = none) : ∀ ws : List Word, ws.length = n → ∀ rest, buf ≠ triplets ws ++ rest := by
  intro ws hw rest hb
  subst hb
  rw [← hw, scanTriplets_triplets] at h
  cases h

/-! ### The parser -/

/-- Everything the parser can answer, said once. -/
theorem parseBytes_cases (buf : List Byte) (n : Nat) :
    (parseDomain buf n = true ∧ ∃ ws, scanTriplets buf n = some ws ∧ parseBytes buf n = .ok ws) ∨
    (parseDomain buf n = true ∧ scanTriplets buf n = none ∧ parseBytes buf n = .badCrc) ∨
    (parseDomain buf n = false ∧ parseBytes buf n = .outside) := by
  unfold parseBytes
  cases hd : parseDomain buf n with
  | false => exact .inr (.inr ⟨rfl, rfl⟩)
  | true =>
    cases hs : scanTriplets buf n with
    | none => exact .inr (.inl ⟨rfl, rfl, rfl⟩)
    | some ws => exact .inl ⟨rfl, ws, rfl, rfl⟩

theorem parseDomain_iff (buf : List Byte) (n : Nat) :
    parseDomain buf n = true ↔ n ≤ 3 ∧ 3 * n ≤ buf.length := by
  simp only [parseDomain, Bool.and_eq_true, decide_eq_true_eq]
  exact Iff.rfl

/-- The parser reads back the triplets of up to three words. -/
theorem parseBytes_triplets (ws : List Word) (rest : List Byte) (h : ws.length ≤ 3) :
    parseBytes (triplets ws ++ rest) ws.length = .ok ws := by
  have hd : parseDomain (triplets ws ++ rest) ws.length = true := by
    rw [parseDomain_iff]; simp; omega
  simp [parseBytes, hd]

/-! ### The framer -/

theorem frameDomain_iff (pl : List Word) : frameDomain pl = true ↔ pl.length ≤ 2 := by
  simp only [frameDomain, decide_eq_true_eq]
  exact Iff.rfl

@[simp] theorem length_frameBytes (c : Word) (pl : List Word) : (frameBytes c pl).length = 2 + 3 * pl.length := by
  simp [frameBytes]; omega

theorem frameBytes_nil (c : Word) : frameBytes c [] = [hiByte c, loByte c] := rfl

/-- The two-tick frame, byte by byte. -/
theorem frameBytes_two (c a b : Word) : frameBytes c [a, b] =
    [hiByte c, loByte c, hiByte a, loByte a, checksum a, hiByte b, loByte b, checksum b] := rfl

end Sys2Proof.Machine

namespace Sys2Proof

@[simp] theorem Op.ofSel_sel (o : Op) : Op.ofSel o.sel = o := by cases o <;> rfl

@[simp] theorem Op.sel_ofSel (v : BitVec 3) : (Op.ofSel v).sel = v := by revert v; decide

end Sys2Proof
end

