-- ==== Sys2Proof/Laws/State.lean ====
section
/-! SUPPORT. What each named update does to each field of the state: one lemma per field per update, true by rfl. -/

namespace Sys2Proof.Machine

variable (s : State)

/-! ### `log` -/

@[simp] theorem State.log_p0 (e : Event) : (s.log e).p0 = s.p0 := rfl
@[simp] theorem State.log_p1 (e : Event) : (s.log e).p1 = s.p1 := rfl
@[simp] theorem State.log_w0 (e : Event) : (s.log e).w0 = s.w0 := rfl
@[simp] theorem State.log_w1 (e : Event) : (s.log e).w1 = s.w1 := rfl
@[simp] theorem State.log_w2 (e : Event) : (s.log e).w2 = s.w2 := rfl
@[simp] theorem State.log_nwords (e : Event) : (s.log e).nwords = s.nwords := rfl
@[simp] theorem State.log_phase (e : Event) : (s.log e).phase = s.phase := rfl
@[simp] theorem State.log_bound (e : Event) : (s.log e).bound = s.bound := rfl
@[simp] theorem State.log_addr (e : Event) : (s.log e).addr = s.addr := rfl
@[simp] theorem State.log_hnd (e : Event) : (s.log e).hnd = s.hnd := rfl
@[simp] theorem State.log_op (e : Event) : (s.log e).op = s.op := rfl
@[simp] theorem State.log_status (e : Event) : (s.log e).status = s.status := rfl
@[simp] theorem State.log_txbuf (e : Event) : (s.log e).txbuf = s.txbuf := rfl
@[simp] theorem State.log_txlen (e : Event) : (s.log e).txlen = s.txlen := rfl
@[simp] theorem State.log_rxbuf (e : Event) : (s.log e).rxbuf = s.rxbuf := rfl
@[simp] theorem State.log_rxlen (e : Event) : (s.log e).rxlen = s.rxlen := rfl
@[simp] theorem State.log_rst (e : Event) : (s.log e).rst = s.rst := rfl
@[simp] theorem State.log_req (e : Event) : (s.log e).req = s.req := rfl
@[simp] theorem State.log_eval (e : Event) : (s.log e).eval = s.eval := rfl
@[simp] theorem State.log_env (e : Event) : (s.log e).env = s.env := rfl
@[simp] theorem State.log_out (e : Event) : (s.log e).out = s.out := rfl
@[simp] theorem State.log_trace (e : Event) : (s.log e).trace = s.trace ++ [e] := rfl

/-! ### `setPhase` -/

@[simp] theorem State.setPhase_p0 (p : Phase) : (s.setPhase p).p0 = s.p0 := rfl
@[simp] theorem State.setPhase_p1 (p : Phase) : (s.setPhase p).p1 = s.p1 := rfl
@[simp] theorem State.setPhase_w0 (p : Phase) : (s.setPhase p).w0 = s.w0 := rfl
@[simp] theorem State.setPhase_w1 (p : Phase) : (s.setPhase p).w1 = s.w1 := rfl
@[simp] theorem State.setPhase_w2 (p : Phase) : (s.setPhase p).w2 = s.w2 := rfl
@[simp] theorem State.setPhase_nwords (p : Phase) : (s.setPhase p).nwords = s.nwords := rfl
@[simp] theorem State.setPhase_phase (p : Phase) : (s.setPhase p).phase = p := rfl
@[simp] theorem State.setPhase_bound (p : Phase) : (s.setPhase p).bound = s.bound := rfl
@[simp] theorem State.setPhase_addr (p : Phase) : (s.setPhase p).addr = s.addr := rfl
@[simp] theorem State.setPhase_hnd (p : Phase) : (s.setPhase p).hnd = s.hnd := rfl
@[simp] theorem State.setPhase_op (p : Phase) : (s.setPhase p).op = s.op := rfl
@[simp] theorem State.setPhase_status (p : Phase) : (s.setPhase p).status = s.status := rfl
@[simp] theorem State.setPhase_txbuf (p : Phase) : (s.setPhase p).txbuf = s.txbuf := rfl
@[simp] theorem State.setPhase_txlen (p : Phase) : (s.setPhase p).txlen = s.txlen := rfl
@[simp] theorem State.setPhase_rxbuf (p : Phase) : (s.setPhase p).rxbuf = s.rxbuf := rfl
@[simp] theorem State.setPhase_rxlen (p : Phase) : (s.setPhase p).rxlen = s.rxlen := rfl
@[simp] theorem State.setPhase_rst (p : Phase) : (s.setPhase p).rst = s.rst := rfl
@[simp] theorem State.setPhase_req (p : Phase) : (s.setPhase p).req = s.req := rfl
@[simp] theorem State.setPhase_eval (p : Phase) : (s.setPhase p).eval = s.eval := rfl
@[simp] theorem State.setPhase_env (p : Phase) : (s.setPhase p).env = s.env := rfl
@[simp] theorem State.setPhase_out (p : Phase) : (s.setPhase p).out = s.out := rfl
@[simp] theorem State.setPhase_trace (p : Phase) : (s.setPhase p).trace = s.trace := rfl

/-! ### `setEnv` -/

@[simp] theorem State.setEnv_p0 (v : Env) : (s.setEnv v).p0 = s.p0 := rfl
@[simp] theorem State.setEnv_p1 (v : Env) : (s.setEnv v).p1 = s.p1 := rfl
@[simp] theorem State.setEnv_w0 (v : Env) : (s.setEnv v).w0 = s.w0 := rfl
@[simp] theorem State.setEnv_w1 (v : Env) : (s.setEnv v).w1 = s.w1 := rfl
@[simp] theorem State.setEnv_w2 (v : Env) : (s.setEnv v).w2 = s.w2 := rfl
@[simp] theorem State.setEnv_nwords (v : Env) : (s.setEnv v).nwords = s.nwords := rfl
@[simp] theorem State.setEnv_phase (v : Env) : (s.setEnv v).phase = s.phase := rfl
@[simp] theorem State.setEnv_bound (v : Env) : (s.setEnv v).bound = s.bound := rfl
@[simp] theorem State.setEnv_addr (v : Env) : (s.setEnv v).addr = s.addr := rfl
@[simp] theorem State.setEnv_hnd (v : Env) : (s.setEnv v).hnd = s.hnd := rfl
@[simp] theorem State.setEnv_op (v : Env) : (s.setEnv v).op = s.op := rfl
@[simp] theorem State.setEnv_status (v : Env) : (s.setEnv v).status = s.status := rfl
@[simp] theorem State.setEnv_txbuf (v : Env) : (s.setEnv v).txbuf = s.txbuf := rfl
@[simp] theorem State.setEnv_txlen (v : Env) : (s.setEnv v).txlen = s.txlen := rfl
@[simp] theorem State.setEnv_rxbuf (v : Env) : (s.setEnv v).rxbuf = s.rxbuf := rfl
@[simp] theorem State.setEnv_rxlen (v : Env) : (s.setEnv v).rxlen = s.rxlen := rfl
@[simp] theorem State.setEnv_rst (v : Env) : (s.setEnv v).rst = s.rst := rfl
@[simp] theorem State.setEnv_req (v : Env) : (s.setEnv v).req = s.req := rfl
@[simp] theorem State.setEnv_eval (v : Env) : (s.setEnv v).eval = s.eval := rfl
@[simp] theorem State.setEnv_env (v : Env) : (s.setEnv v).env = v := rfl
@[simp] theorem State.setEnv_out (v : Env) : (s.setEnv v).out = s.out := rfl
@[simp] theorem State.setEnv_trace (v : Env) : (s.setEnv v).trace = s.trace := rfl

/-! ### `setStatus` -/

@[simp] theorem State.setStatus_p0 (c : Status) : (s.setStatus c).p0 = s.p0 := rfl
@[simp] theorem State.setStatus_p1 (c : Status) : (s.setStatus c).p1 = s.p1 := rfl
@[simp] theorem State.setStatus_w0 (c : Status) : (s.setStatus c).w0 = s.w0 := rfl
@[simp] theorem State.setStatus_w1 (c : Status) : (s.setStatus c).w1 = s.w1 := rfl
@[simp] theorem State.setStatus_w2 (c : Status) : (s.setStatus c).w2 = s.w2 := rfl
@[simp] theorem State.setStatus_nwords (c : Status) : (s.setStatus c).nwords = s.nwords := rfl
@[simp] theorem State.setStatus_phase (c : Status) : (s.setStatus c).phase = s.phase := rfl
@[simp] theorem State.setStatus_bound (c : Status) : (s.setStatus c).bound = s.bound := rfl
@[simp] theorem State.setStatus_addr (c : Status) : (s.setStatus c).addr = s.addr := rfl
@[simp] theorem State.setStatus_hnd (c : Status) : (s.setStatus c).hnd = s.hnd := rfl
@[simp] theorem State.setStatus_op (c : Status) : (s.setStatus c).op = s.op := rfl
@[simp] theorem State.setStatus_status (c : Status) : (s.setStatus c).status = c := rfl
@[simp] theorem State.setStatus_txbuf (c : Status) : (s.setStatus c).txbuf = s.txbuf := rfl
@[simp] theorem State.setStatus_txlen (c : Status) : (s.setStatus c).txlen = s.txlen := rfl
@[simp] theorem State.setStatus_rxbuf (c : Status) : (s.setStatus c).rxbuf = s.rxbuf := rfl
@[simp] theorem State.setStatus_rxlen (c : Status) : (s.setStatus c).rxlen = s.rxlen := rfl
@[simp] theorem State.setStatus_rst (c : Status) : (s.setStatus c).rst = s.rst := rfl
@[simp] theorem State.setStatus_req (c : Status) : (s.setStatus c).req = s.req := rfl
@[simp] theorem State.setStatus_eval (c : Status) : (s.setStatus c).eval = s.eval := rfl
@[simp] theorem State.setStatus_env (c : Status) : (s.setStatus c).env = s.env := rfl
@[simp] theorem State.setStatus_out (c : Status) : (s.setStatus c).out = s.out := rfl
@[simp] theorem State.setStatus_trace (c : Status) : (s.setStatus c).trace = s.trace := rfl

/-! ### `setAddr` -/

@[simp] theorem State.setAddr_p0 (a : Addr) : (s.setAddr a).p0 = s.p0 := rfl
@[simp] theorem State.setAddr_p1 (a : Addr) : (s.setAddr a).p1 = s.p1 := rfl
@[simp] theorem State.setAddr_w0 (a : Addr) : (s.setAddr a).w0 = s.w0 := rfl
@[simp] theorem State.setAddr_w1 (a : Addr) : (s.setAddr a).w1 = s.w1 := rfl
@[simp] theorem State.setAddr_w2 (a : Addr) : (s.setAddr a).w2 = s.w2 := rfl
@[simp] theorem State.setAddr_nwords (a : Addr) : (s.setAddr a).nwords = s.nwords := rfl
@[simp] theorem State.setAddr_phase (a : Addr) : (s.setAddr a).phase = s.phase := rfl
@[simp] theorem State.setAddr_bound (a : Addr) : (s.setAddr a).bound = s.bound := rfl
@[simp] theorem State.setAddr_addr (a : Addr) : (s.setAddr a).addr = a := rfl
@[simp] theorem State.setAddr_hnd (a : Addr) : (s.setAddr a).hnd = s.hnd := rfl
@[simp] theorem State.setAddr_op (a : Addr) : (s.setAddr a).op = s.op := rfl
@[simp] theorem State.setAddr_status (a : Addr) : (s.setAddr a).status = s.status := rfl
@[simp] theorem State.setAddr_txbuf (a : Addr) : (s.setAddr a).txbuf = s.txbuf := rfl
@[simp] theorem State.setAddr_txlen (a : Addr) : (s.setAddr a).txlen = s.txlen := rfl
@[simp] theorem State.setAddr_rxbuf (a : Addr) : (s.setAddr a).rxbuf = s.rxbuf := rfl
@[simp] theorem State.setAddr_rxlen (a : Addr) : (s.setAddr a).rxlen = s.rxlen := rfl
@[simp] theorem State.setAddr_rst (a : Addr) : (s.setAddr a).rst = s.rst := rfl
@[simp] theorem State.setAddr_req (a : Addr) : (s.setAddr a).req = s.req := rfl
@[simp] theorem State.setAddr_eval (a : Addr) : (s.setAddr a).eval = s.eval := rfl
@[simp] theorem State.setAddr_env (a : Addr) : (s.setAddr a).env = s.env := rfl
@[simp] theorem State.setAddr_out (a : Addr) : (s.setAddr a).out = s.out := rfl
@[simp] theorem State.setAddr_trace (a : Addr) : (s.setAddr a).trace = s.trace := rfl

/-! ### `latch` -/

@[simp] theorem State.latch_p0 (o : Op) (a b : Word) : (s.latch o a b).p0 = a := rfl
@[simp] theorem State.latch_p1 (o : Op) (a b : Word) : (s.latch o a b).p1 = b := rfl
@[simp] theorem State.latch_w0 (o : Op) (a b : Word) : (s.latch o a b).w0 = 0 := rfl
@[simp] theorem State.latch_w1 (o : Op) (a b : Word) : (s.latch o a b).w1 = 0 := rfl
@[simp] theorem State.latch_w2 (o : Op) (a b : Word) : (s.latch o a b).w2 = 0 := rfl
@[simp] theorem State.latch_nwords (o : Op) (a b : Word) : (s.latch o a b).nwords = 0 := rfl
@[simp] theorem State.latch_phase (o : Op) (a b : Word) : (s.latch o a b).phase = s.phase := rfl
@[simp] theorem State.latch_bound (o : Op) (a b : Word) : (s.latch o a b).bound = s.bound := rfl
@[simp] theorem State.latch_addr (o : Op) (a b : Word) : (s.latch o a b).addr = s.addr := rfl
@[simp] theorem State.latch_hnd (o : Op) (a b : Word) : (s.latch o a b).hnd = s.hnd := rfl
@[simp] theorem State.latch_op (o : Op) (a b : Word) : (s.latch o a b).op = o := rfl
@[simp] theorem State.latch_status (o : Op) (a b : Word) : (s.latch o a b).status = .ok := rfl
@[simp] theorem State.latch_txbuf (o : Op) (a b : Word) : (s.latch o a b).txbuf = s.txbuf := rfl
@[simp] theorem State.latch_txlen (o : Op) (a b : Word) : (s.latch o a b).txlen = s.txlen := rfl
@[simp] theorem State.latch_rxbuf (o : Op) (a b : Word) : (s.latch o a b).rxbuf = s.rxbuf := rfl
@[simp] theorem State.latch_rxlen (o : Op) (a b : Word) : (s.latch o a b).rxlen = s.rxlen := rfl
@[simp] theorem State.latch_rst (o : Op) (a b : Word) : (s.latch o a b).rst = s.rst := rfl
@[simp] theorem State.latch_req (o : Op) (a b : Word) : (s.latch o a b).req = none := rfl
@[simp] theorem State.latch_eval (o : Op) (a b : Word) : (s.latch o a b).eval = s.eval := rfl
@[simp] theorem State.latch_env (o : Op) (a b : Word) : (s.latch o a b).env = s.env := rfl
@[simp] theorem State.latch_out (o : Op) (a b : Word) : (s.latch o a b).out = s.out := rfl
@[simp] theorem State.latch_trace (o : Op) (a b : Word) : (s.latch o a b).trace = s.trace := rfl

/-! ### `bind` -/

@[simp] theorem State.bind_p0 (h : Handle) : (s.bind h).p0 = s.p0 := rfl
@[simp] theorem State.bind_p1 (h : Handle) : (s.bind h).p1 = s.p1 := rfl
@[simp] theorem State.bind_w0 (h : Handle) : (s.bind h).w0 = s.w0 := rfl
@[simp] theorem State.bind_w1 (h : Handle) : (s.bind h).w1 = s.w1 := rfl
@[simp] theorem State.bind_w2 (h : Handle) : (s.bind h).w2 = s.w2 := rfl
@[simp] theorem State.bind_nwords (h : Handle) : (s.bind h).nwords = s.nwords := rfl
@[simp] theorem State.bind_phase (h : Handle) : (s.bind h).phase = s.phase := rfl
@[simp] theorem State.bind_bound (h : Handle) : (s.bind h).bound = true := rfl
@[simp] theorem State.bind_addr (h : Handle) : (s.bind h).addr = s.addr := rfl
@[simp] theorem State.bind_hnd (h : Handle) : (s.bind h).hnd = h := rfl
@[simp] theorem State.bind_op (h : Handle) : (s.bind h).op = s.op := rfl
@[simp] theorem State.bind_status (h : Handle) : (s.bind h).status = s.status := rfl
@[simp] theorem State.bind_txbuf (h : Handle) : (s.bind h).txbuf = s.txbuf := rfl
@[simp] theorem State.bind_txlen (h : Handle) : (s.bind h).txlen = s.txlen := rfl
@[simp] theorem State.bind_rxbuf (h : Handle) : (s.bind h).rxbuf = s.rxbuf := rfl
@[simp] theorem State.bind_rxlen (h : Handle) : (s.bind h).rxlen = s.rxlen := rfl
@[simp] theorem State.bind_rst (h : Handle) : (s.bind h).rst = s.rst := rfl
@[simp] theorem State.bind_req (h : Handle) : (s.bind h).req = s.req := rfl
@[simp] theorem State.bind_eval (h : Handle) : (s.bind h).eval = s.eval := rfl
@[simp] theorem State.bind_env (h : Handle) : (s.bind h).env = s.env := rfl
@[simp] theorem State.bind_out (h : Handle) : (s.bind h).out = s.out := rfl
@[simp] theorem State.bind_trace (h : Handle) : (s.bind h).trace = s.trace := rfl

/-! ### `unbind` -/

@[simp] theorem State.unbind_p0 : (s.unbind).p0 = s.p0 := rfl
@[simp] theorem State.unbind_p1 : (s.unbind).p1 = s.p1 := rfl
@[simp] theorem State.unbind_w0 : (s.unbind).w0 = s.w0 := rfl
@[simp] theorem State.unbind_w1 : (s.unbind).w1 = s.w1 := rfl
@[simp] theorem State.unbind_w2 : (s.unbind).w2 = s.w2 := rfl
@[simp] theorem State.unbind_nwords : (s.unbind).nwords = s.nwords := rfl
@[simp] theorem State.unbind_phase : (s.unbind).phase = s.phase := rfl
@[simp] theorem State.unbind_bound : (s.unbind).bound = false := rfl
@[simp] theorem State.unbind_addr : (s.unbind).addr = s.addr := rfl
@[simp] theorem State.unbind_hnd : (s.unbind).hnd = s.hnd := rfl
@[simp] theorem State.unbind_op : (s.unbind).op = s.op := rfl
@[simp] theorem State.unbind_status : (s.unbind).status = s.status := rfl
@[simp] theorem State.unbind_txbuf : (s.unbind).txbuf = s.txbuf := rfl
@[simp] theorem State.unbind_txlen : (s.unbind).txlen = s.txlen := rfl
@[simp] theorem State.unbind_rxbuf : (s.unbind).rxbuf = s.rxbuf := rfl
@[simp] theorem State.unbind_rxlen : (s.unbind).rxlen = s.rxlen := rfl
@[simp] theorem State.unbind_rst : (s.unbind).rst = s.rst := rfl
@[simp] theorem State.unbind_req : (s.unbind).req = s.req := rfl
@[simp] theorem State.unbind_eval : (s.unbind).eval = s.eval := rfl
@[simp] theorem State.unbind_env : (s.unbind).env = s.env := rfl
@[simp] theorem State.unbind_out : (s.unbind).out = s.out := rfl
@[simp] theorem State.unbind_trace : (s.unbind).trace = s.trace := rfl

/-! ### `loadTx` -/

@[simp] theorem State.loadTx_p0 (f : List Byte) : (s.loadTx f).p0 = s.p0 := rfl
@[simp] theorem State.loadTx_p1 (f : List Byte) : (s.loadTx f).p1 = s.p1 := rfl
@[simp] theorem State.loadTx_w0 (f : List Byte) : (s.loadTx f).w0 = s.w0 := rfl
@[simp] theorem State.loadTx_w1 (f : List Byte) : (s.loadTx f).w1 = s.w1 := rfl
@[simp] theorem State.loadTx_w2 (f : List Byte) : (s.loadTx f).w2 = s.w2 := rfl
@[simp] theorem State.loadTx_nwords (f : List Byte) : (s.loadTx f).nwords = s.nwords := rfl
@[simp] theorem State.loadTx_phase (f : List Byte) : (s.loadTx f).phase = s.phase := rfl
@[simp] theorem State.loadTx_bound (f : List Byte) : (s.loadTx f).bound = s.bound := rfl
@[simp] theorem State.loadTx_addr (f : List Byte) : (s.loadTx f).addr = s.addr := rfl
@[simp] theorem State.loadTx_hnd (f : List Byte) : (s.loadTx f).hnd = s.hnd := rfl
@[simp] theorem State.loadTx_op (f : List Byte) : (s.loadTx f).op = s.op := rfl
@[simp] theorem State.loadTx_status (f : List Byte) : (s.loadTx f).status = s.status := rfl
@[simp] theorem State.loadTx_txbuf (f : List Byte) : (s.loadTx f).txbuf = overwrite f s.txbuf := rfl
@[simp] theorem State.loadTx_txlen (f : List Byte) : (s.loadTx f).txlen = BitVec.ofNat 4 f.length := rfl
@[simp] theorem State.loadTx_rxbuf (f : List Byte) : (s.loadTx f).rxbuf = s.rxbuf := rfl
@[simp] theorem State.loadTx_rxlen (f : List Byte) : (s.loadTx f).rxlen = s.rxlen := rfl
@[simp] theorem State.loadTx_rst (f : List Byte) : (s.loadTx f).rst = s.rst := rfl
@[simp] theorem State.loadTx_req (f : List Byte) : (s.loadTx f).req = s.req := rfl
@[simp] theorem State.loadTx_eval (f : List Byte) : (s.loadTx f).eval = s.eval := rfl
@[simp] theorem State.loadTx_env (f : List Byte) : (s.loadTx f).env = s.env := rfl
@[simp] theorem State.loadTx_out (f : List Byte) : (s.loadTx f).out = s.out := rfl
@[simp] theorem State.loadTx_trace (f : List Byte) : (s.loadTx f).trace = s.trace := rfl

/-! ### `loadRx` -/

@[simp] theorem State.loadRx_p0 (f : List Byte) : (s.loadRx f).p0 = s.p0 := rfl
@[simp] theorem State.loadRx_p1 (f : List Byte) : (s.loadRx f).p1 = s.p1 := rfl
@[simp] theorem State.loadRx_w0 (f : List Byte) : (s.loadRx f).w0 = s.w0 := rfl
@[simp] theorem State.loadRx_w1 (f : List Byte) : (s.loadRx f).w1 = s.w1 := rfl
@[simp] theorem State.loadRx_w2 (f : List Byte) : (s.loadRx f).w2 = s.w2 := rfl
@[simp] theorem State.loadRx_nwords (f : List Byte) : (s.loadRx f).nwords = s.nwords := rfl
@[simp] theorem State.loadRx_phase (f : List Byte) : (s.loadRx f).phase = s.phase := rfl
@[simp] theorem State.loadRx_bound (f : List Byte) : (s.loadRx f).bound = s.bound := rfl
@[simp] theorem State.loadRx_addr (f : List Byte) : (s.loadRx f).addr = s.addr := rfl
@[simp] theorem State.loadRx_hnd (f : List Byte) : (s.loadRx f).hnd = s.hnd := rfl
@[simp] theorem State.loadRx_op (f : List Byte) : (s.loadRx f).op = s.op := rfl
@[simp] theorem State.loadRx_status (f : List Byte) : (s.loadRx f).status = s.status := rfl
@[simp] theorem State.loadRx_txbuf (f : List Byte) : (s.loadRx f).txbuf = s.txbuf := rfl
@[simp] theorem State.loadRx_txlen (f : List Byte) : (s.loadRx f).txlen = s.txlen := rfl
@[simp] theorem State.loadRx_rxbuf (f : List Byte) : (s.loadRx f).rxbuf = overwrite f s.rxbuf := rfl
@[simp] theorem State.loadRx_rxlen (f : List Byte) : (s.loadRx f).rxlen = BitVec.ofNat 4 f.length := rfl
@[simp] theorem State.loadRx_rst (f : List Byte) : (s.loadRx f).rst = s.rst := rfl
@[simp] theorem State.loadRx_req (f : List Byte) : (s.loadRx f).req = s.req := rfl
@[simp] theorem State.loadRx_eval (f : List Byte) : (s.loadRx f).eval = s.eval := rfl
@[simp] theorem State.loadRx_env (f : List Byte) : (s.loadRx f).env = s.env := rfl
@[simp] theorem State.loadRx_out (f : List Byte) : (s.loadRx f).out = s.out := rfl
@[simp] theorem State.loadRx_trace (f : List Byte) : (s.loadRx f).trace = s.trace := rfl

/-! ### `loadWords` -/

@[simp] theorem State.loadWords_p0 (ws : List Word) (n : Nat) : (s.loadWords ws n).p0 = s.p0 := rfl
@[simp] theorem State.loadWords_p1 (ws : List Word) (n : Nat) : (s.loadWords ws n).p1 = s.p1 := rfl
@[simp] theorem State.loadWords_w0 (ws : List Word) (n : Nat) : (s.loadWords ws n).w0 = ws.getD 0 s.w0 := rfl
@[simp] theorem State.loadWords_w1 (ws : List Word) (n : Nat) : (s.loadWords ws n).w1 = ws.getD 1 s.w1 := rfl
@[simp] theorem State.loadWords_w2 (ws : List Word) (n : Nat) : (s.loadWords ws n).w2 = ws.getD 2 s.w2 := rfl
@[simp] theorem State.loadWords_nwords (ws : List Word) (n : Nat) : (s.loadWords ws n).nwords = BitVec.ofNat 2 n := rfl
@[simp] theorem State.loadWords_phase (ws : List Word) (n : Nat) : (s.loadWords ws n).phase = s.phase := rfl
@[simp] theorem State.loadWords_bound (ws : List Word) (n : Nat) : (s.loadWords ws n).bound = s.bound := rfl
@[simp] theorem State.loadWords_addr (ws : List Word) (n : Nat) : (s.loadWords ws n).addr = s.addr := rfl
@[simp] theorem State.loadWords_hnd (ws : List Word) (n : Nat) : (s.loadWords ws n).hnd = s.hnd := rfl
@[simp] theorem State.loadWords_op (ws : List Word) (n : Nat) : (s.loadWords ws n).op = s.op := rfl
@[simp] theorem State.loadWords_status (ws : List Word) (n : Nat) : (s.loadWords ws n).status = s.status := rfl
@[simp] theorem State.loadWords_txbuf (ws : List Word) (n : Nat) : (s.loadWords ws n).txbuf = s.txbuf := rfl
@[simp] theorem State.loadWords_txlen (ws : List Word) (n : Nat) : (s.loadWords ws n).txlen = s.txlen := rfl
@[simp] theorem State.loadWords_rxbuf (ws : List Word) (n : Nat) : (s.loadWords ws n).rxbuf = s.rxbuf := rfl
@[simp] theorem State.loadWords_rxlen (ws : List Word) (n : Nat) : (s.loadWords ws n).rxlen = s.rxlen := rfl
@[simp] theorem State.loadWords_rst (ws : List Word) (n : Nat) : (s.loadWords ws n).rst = s.rst := rfl
@[simp] theorem State.loadWords_req (ws : List Word) (n : Nat) : (s.loadWords ws n).req = s.req := rfl
@[simp] theorem State.loadWords_eval (ws : List Word) (n : Nat) : (s.loadWords ws n).eval = s.eval := rfl
@[simp] theorem State.loadWords_env (ws : List Word) (n : Nat) : (s.loadWords ws n).env = s.env := rfl
@[simp] theorem State.loadWords_out (ws : List Word) (n : Nat) : (s.loadWords ws n).out = s.out := rfl
@[simp] theorem State.loadWords_trace (ws : List Word) (n : Nat) : (s.loadWords ws n).trace = s.trace := rfl

/-! ### `answer` -/

@[simp] theorem State.answer_p0 (v : PortOut) : (s.answer v).p0 = s.p0 := rfl
@[simp] theorem State.answer_p1 (v : PortOut) : (s.answer v).p1 = s.p1 := rfl
@[simp] theorem State.answer_w0 (v : PortOut) : (s.answer v).w0 = s.w0 := rfl
@[simp] theorem State.answer_w1 (v : PortOut) : (s.answer v).w1 = s.w1 := rfl
@[simp] theorem State.answer_w2 (v : PortOut) : (s.answer v).w2 = s.w2 := rfl
@[simp] theorem State.answer_nwords (v : PortOut) : (s.answer v).nwords = s.nwords := rfl
@[simp] theorem State.answer_phase (v : PortOut) : (s.answer v).phase = s.phase := rfl
@[simp] theorem State.answer_bound (v : PortOut) : (s.answer v).bound = s.bound := rfl
@[simp] theorem State.answer_addr (v : PortOut) : (s.answer v).addr = s.addr := rfl
@[simp] theorem State.answer_hnd (v : PortOut) : (s.answer v).hnd = s.hnd := rfl
@[simp] theorem State.answer_op (v : PortOut) : (s.answer v).op = s.op := rfl
@[simp] theorem State.answer_status (v : PortOut) : (s.answer v).status = s.status := rfl
@[simp] theorem State.answer_txbuf (v : PortOut) : (s.answer v).txbuf = s.txbuf := rfl
@[simp] theorem State.answer_txlen (v : PortOut) : (s.answer v).txlen = s.txlen := rfl
@[simp] theorem State.answer_rxbuf (v : PortOut) : (s.answer v).rxbuf = s.rxbuf := rfl
@[simp] theorem State.answer_rxlen (v : PortOut) : (s.answer v).rxlen = s.rxlen := rfl
@[simp] theorem State.answer_rst (v : PortOut) : (s.answer v).rst = s.rst := rfl
@[simp] theorem State.answer_req (v : PortOut) : (s.answer v).req = s.req := rfl
@[simp] theorem State.answer_eval (v : PortOut) : (s.answer v).eval = none := rfl
@[simp] theorem State.answer_env (v : PortOut) : (s.answer v).env = s.env := rfl
@[simp] theorem State.answer_out (v : PortOut) : (s.answer v).out = some v := rfl
@[simp] theorem State.answer_trace (v : PortOut) : (s.answer v).trace = s.trace := rfl

/-! ### `raiseFail` -/

@[simp] theorem State.raiseFail_p0 (c : Status) : (s.raiseFail c).p0 = s.p0 := rfl
@[simp] theorem State.raiseFail_p1 (c : Status) : (s.raiseFail c).p1 = s.p1 := rfl
@[simp] theorem State.raiseFail_w0 (c : Status) : (s.raiseFail c).w0 = s.w0 := rfl
@[simp] theorem State.raiseFail_w1 (c : Status) : (s.raiseFail c).w1 = s.w1 := rfl
@[simp] theorem State.raiseFail_w2 (c : Status) : (s.raiseFail c).w2 = s.w2 := rfl
@[simp] theorem State.raiseFail_nwords (c : Status) : (s.raiseFail c).nwords = s.nwords := rfl
@[simp] theorem State.raiseFail_phase (c : Status) : (s.raiseFail c).phase = if s.op = .beginOp ∧ s.bound = true then .relFail else .idle := rfl
@[simp] theorem State.raiseFail_bound (c : Status) : (s.raiseFail c).bound = s.bound := rfl
@[simp] theorem State.raiseFail_addr (c : Status) : (s.raiseFail c).addr = s.addr := rfl
@[simp] theorem State.raiseFail_hnd (c : Status) : (s.raiseFail c).hnd = s.hnd := rfl
@[simp] theorem State.raiseFail_op (c : Status) : (s.raiseFail c).op = s.op := rfl
@[simp] theorem State.raiseFail_status (c : Status) : (s.raiseFail c).status = c := rfl
@[simp] theorem State.raiseFail_txbuf (c : Status) : (s.raiseFail c).txbuf = s.txbuf := rfl
@[simp] theorem State.raiseFail_txlen (c : Status) : (s.raiseFail c).txlen = s.txlen := rfl
@[simp] theorem State.raiseFail_rxbuf (c : Status) : (s.raiseFail c).rxbuf = s.rxbuf := rfl
@[simp] theorem State.raiseFail_rxlen (c : Status) : (s.raiseFail c).rxlen = s.rxlen := rfl
@[simp] theorem State.raiseFail_rst (c : Status) : (s.raiseFail c).rst = s.rst := rfl
@[simp] theorem State.raiseFail_req (c : Status) : (s.raiseFail c).req = s.req := rfl
@[simp] theorem State.raiseFail_eval (c : Status) : (s.raiseFail c).eval = s.eval := rfl
@[simp] theorem State.raiseFail_env (c : Status) : (s.raiseFail c).env = s.env := rfl
@[simp] theorem State.raiseFail_out (c : Status) : (s.raiseFail c).out = s.out := rfl
@[simp] theorem State.raiseFail_trace (c : Status) : (s.raiseFail c).trace = s.trace := rfl

/-! ### `hardwareReset` -/

@[simp] theorem State.hardwareReset_p0 : (s.hardwareReset).p0 = State.reset.p0 := rfl
@[simp] theorem State.hardwareReset_p1 : (s.hardwareReset).p1 = State.reset.p1 := rfl
@[simp] theorem State.hardwareReset_w0 : (s.hardwareReset).w0 = State.reset.w0 := rfl
@[simp] theorem State.hardwareReset_w1 : (s.hardwareReset).w1 = State.reset.w1 := rfl
@[simp] theorem State.hardwareReset_w2 : (s.hardwareReset).w2 = State.reset.w2 := rfl
@[simp] theorem State.hardwareReset_nwords : (s.hardwareReset).nwords = State.reset.nwords := rfl
@[simp] theorem State.hardwareReset_phase : (s.hardwareReset).phase = State.reset.phase := rfl
@[simp] theorem State.hardwareReset_bound : (s.hardwareReset).bound = State.reset.bound := rfl
@[simp] theorem State.hardwareReset_addr : (s.hardwareReset).addr = State.reset.addr := rfl
@[simp] theorem State.hardwareReset_hnd : (s.hardwareReset).hnd = State.reset.hnd := rfl
@[simp] theorem State.hardwareReset_op : (s.hardwareReset).op = State.reset.op := rfl
@[simp] theorem State.hardwareReset_status : (s.hardwareReset).status = State.reset.status := rfl
@[simp] theorem State.hardwareReset_txbuf : (s.hardwareReset).txbuf = State.reset.txbuf := rfl
@[simp] theorem State.hardwareReset_txlen : (s.hardwareReset).txlen = State.reset.txlen := rfl
@[simp] theorem State.hardwareReset_rxbuf : (s.hardwareReset).rxbuf = State.reset.rxbuf := rfl
@[simp] theorem State.hardwareReset_rxlen : (s.hardwareReset).rxlen = State.reset.rxlen := rfl
@[simp] theorem State.hardwareReset_rst : (s.hardwareReset).rst = State.reset.rst := rfl
@[simp] theorem State.hardwareReset_req : (s.hardwareReset).req = s.req := rfl
@[simp] theorem State.hardwareReset_eval : (s.hardwareReset).eval = s.eval := rfl
@[simp] theorem State.hardwareReset_env : (s.hardwareReset).env = s.env := rfl
@[simp] theorem State.hardwareReset_out : (s.hardwareReset).out = s.out := rfl
@[simp] theorem State.hardwareReset_trace : (s.hardwareReset).trace = s.trace := rfl

end Sys2Proof.Machine
end

