-- ==== Sys2Proof/Laws/Ops.lean ====
section
/-! SUPPORT. What each shared operation can do, said once: every next state it can answer. -/

namespace Sys2Proof.Machine

/-! ### Buffers -/

/-- Reading back what was just written, over any old contents. -/
@[simp] theorem take_overwrite (f old : List Byte) : (overwrite f old).take f.length = f := by
  simp [overwrite]

/-- Overwriting keeps the buffer's size. -/
theorem length_overwrite {f old : List Byte} (h : f.length ≤ old.length) :
    (overwrite f old).length = old.length := by
  simp [overwrite]; omega

/-- Bytes beyond those written keep what they held. -/
theorem overwrite_beyond {f old : List Byte} {i : Nat} (h : f.length ≤ i) : (overwrite f old)[i]? = old[i]? := by
  simp only [overwrite, List.getElem?_append_right h, List.getElem?_drop]
  congr 1; omega

/-- The frame the WRITE step will send is the frame just loaded. -/
theorem txFrame_loadTx (s : State) {f : List Byte} (h : f.length ≤ 8) : (s.loadTx f).txFrame = f := by
  have : (BitVec.ofNat 4 f.length).toNat = f.length := by simp; omega
  simp [State.txFrame, this]

/-- The bytes the CHECK step will parse are the bytes just received. -/
theorem rxFrame_loadRx (s : State) {f : List Byte} (h : f.length ≤ 9) : (s.loadRx f).rxFrame = f := by
  have : (BitVec.ofNat 4 f.length).toNat = f.length := by simp; omega
  simp [State.rxFrame, this]

/-- A frame of the block has 0, 2 or 8 bytes. -/
theorem length_opFrame (o : Op) (a b : Word) : (opFrame o a b).length ≤ 8 := by
  cases o <;> simp [opFrame, cmdWord, payload]

/-! ### Taking a failure -/

/-- Where a failure goes. -/
theorem raiseFail_phase_cases (s : State) (c : Status) :
    (s.op = .beginOp ∧ s.bound = true ∧ (s.raiseFail c).phase = .relFail) ∨
    ((s.op ≠ .beginOp ∨ s.bound = false) ∧ (s.raiseFail c).phase = .idle) := by
  by_cases h1 : s.op = .beginOp
  · cases h2 : s.bound with
    | false => right; simp [h2]
    | true => left; simp [h1, h2]
  · right; simp [h1]

/-! ### The steps -/

theorem relOldStep_cases {s t : State} (h : relOldStep s = .next t) :
    (s.env.releases = 0 ∧ t = s) ∨
    ∃ k, s.env.releases = k + 1 ∧
      t = (((s.setEnv { s.env with releases := k }).log (.released s.hnd)).unbind).setPhase
        (if s.op = .beginOp then .opening else .idle) := by
  unfold relOldStep at h
  split at h <;> rename_i he
  · exact .inl ⟨he, by cases h; rfl⟩
  · exact .inr ⟨_, he, by cases h; rfl⟩

theorem openStep_cases {s t : State} (h : openStep s = .next t) :
    (s.env.opens = [] ∧ t = s) ∨
    (∃ hd rest, s.env.opens = some hd :: rest ∧
      t = ((((s.setEnv { s.env with opens := rest }).log (.opened s.addr (some hd))).bind hd).loadTx
        (frameBytes 0x3682#16 [])).setPhase .write) ∨
    (∃ rest, s.env.opens = none :: rest ∧
      t = ((s.setEnv { s.env with opens := rest }).log (.opened s.addr none)).raiseFail .eOpen) := by
  unfold openStep at h
  split at h <;> rename_i he
  · exact .inl ⟨he, by cases h; rfl⟩
  · exact .inr (.inl ⟨_, _, he, by cases h; rfl⟩)
  · exact .inr (.inr ⟨_, he, by cases h; rfl⟩)

theorem writeGeneralStep_cases {s t : State} (h : writeGeneralStep s = .next t) :
    (s.env.generals = [] ∧ t = s) ∨
    ∃ a rest, s.env.generals = a :: rest ∧
      t = ((s.setEnv { s.env with generals := rest }).log (.wroteGeneral s.hnd s.txFrame a)).setPhase .delay := by
  unfold writeGeneralStep at h
  split at h <;> rename_i he
  · exact .inl ⟨he, by cases h; rfl⟩
  · exact .inr ⟨_, _, he, by cases h; rfl⟩

theorem writeDeviceStep_cases {s t : State} (h : writeDeviceStep s = .next t) :
    (s.env.writes = [] ∧ t = s) ∨
    (∃ rest, s.env.writes = true :: rest ∧
      t = ((s.setEnv { s.env with writes := rest }).log (.wrote s.hnd s.txFrame true)).setPhase .delay) ∨
    (∃ rest, s.env.writes = false :: rest ∧
      t = ((s.setEnv { s.env with writes := rest }).log (.wrote s.hnd s.txFrame false)).raiseFail .eWrite) := by
  unfold writeDeviceStep at h
  split at h <;> rename_i he
  · exact .inl ⟨he, by cases h; rfl⟩
  · exact .inr (.inl ⟨_, he, by cases h; rfl⟩)
  · exact .inr (.inr ⟨_, he, by cases h; rfl⟩)

theorem delayStep_cases {s t : State} (h : delayStep s = .next t) :
    ∃ ms, delayMs s.op = some ms ∧
      ((s.env.sleeps = 0 ∧ t = s) ∨
       ∃ k, s.env.sleeps = k + 1 ∧
        t = ((s.setEnv { s.env with sleeps := k }).log (.slept ms)).setPhase
          (if respWords s.op = 0 then .idle else .read)) := by
  unfold delayStep at h
  split at h
  · cases h
  · rename_i ms hm
    refine ⟨ms, hm, ?_⟩
    split at h <;> rename_i he
    · exact .inl ⟨he, by cases h; rfl⟩
    · exact .inr ⟨_, he, by cases h; rfl⟩

theorem readStep_cases {s t : State} (h : readStep s = .next t) :
    respWords s.op ≠ 0 ∧
    ((s.env.reads = [] ∧ t = s) ∨
     (∃ bs rest, s.env.reads = some bs :: rest ∧ bs.length = 3 * respWords s.op ∧
      t = (((s.setEnv { s.env with reads := rest }).log
        (.didRead s.hnd (3 * respWords s.op) (some bs))).loadRx bs).setPhase .check) ∨
     (∃ ans rest, s.env.reads = ans :: rest ∧ (∀ bs, ans = some bs → bs.length ≠ 3 * respWords s.op) ∧
      t = ((s.setEnv { s.env with reads := rest }).log
        (.didRead s.hnd (3 * respWords s.op) ans)).raiseFail .eRead)) := by
  unfold readStep at h
  split at h
  · cases h
  · rename_i hn
    refine ⟨hn, ?_⟩
    split at h
    · rename_i he; exact .inl ⟨he, by cases h; rfl⟩
    · rename_i he
      exact .inr (.inr ⟨none, _, he, by simp, by cases h; rfl⟩)
    · rename_i bs rest he
      split at h <;> rename_i hl
      · exact .inr (.inl ⟨bs, rest, he, hl, by cases h; rfl⟩)
      · exact .inr (.inr ⟨some bs, rest, he, by intro b hb; cases hb; exact hl, by cases h; rfl⟩)

theorem checkStep_cases {s t : State} (h : checkStep s = .next t) :
    (parseBytes s.rxFrame (respWords s.op) = .badCrc ∧ t = s.raiseFail .eCrc) ∨
    (∃ ws, parseBytes s.rxFrame (respWords s.op) = .ok ws ∧ s.op = .beginOp ∧ identBad ws = true ∧
      t = s.raiseFail .eIdent) ∨
    (∃ ws, parseBytes s.rxFrame (respWords s.op) = .ok ws ∧ ¬(s.op = .beginOp ∧ identBad ws = true) ∧
      t = (s.loadWords ws (respWords s.op)).setPhase .idle) := by
  unfold checkStep at h
  split at h
  · cases h
  · rename_i hp; exact .inl ⟨hp, by cases h; rfl⟩
  · rename_i ws hp
    split at h <;> rename_i hi
    · exact .inr (.inl ⟨ws, hp, hi.1, hi.2, by cases h; rfl⟩)
    · exact .inr (.inr ⟨ws, hp, hi, by cases h; rfl⟩)

theorem relFailStep_cases {s t : State} (h : relFailStep s = .next t) :
    (s.env.releases = 0 ∧ t = s) ∨
    ∃ k, s.env.releases = k + 1 ∧
      t = (((s.setEnv { s.env with releases := k }).log (.released s.hnd)).unbind).setPhase .idle := by
  unfold relFailStep at h
  split at h <;> rename_i he
  · exact .inl ⟨he, by cases h; rfl⟩
  · exact .inr ⟨_, he, by cases h; rfl⟩

/-- What an operation's step can be. -/
theorem operation_cases (o : Op) (acc s : State) :
    (s.phase = .idle ∧ operation o acc s = .next acc) ∨
    (s.phase ≠ .idle ∧ s.op = o ∧ operation o acc s = runningStep s) ∨
    (s.phase ≠ .idle ∧ s.op ≠ o ∧ operation o acc s = .next s) := by
  unfold operation
  by_cases h1 : s.phase = .idle
  · exact .inl ⟨h1, if_pos h1⟩
  · by_cases h2 : s.op = o
    · exact .inr (.inl ⟨h1, h2, by rw [if_neg h1, if_pos h2]⟩)
    · exact .inr (.inr ⟨h1, h2, by rw [if_neg h1, if_neg h2]⟩)

/-- What sending a frame can be. -/
theorem sendFrame_cases (f : List Byte) (s : State) :
    (s.phase = .write ∧ s.txFrame = f ∧ sendFrame f s = writeStep s) ∨
    (¬(s.phase = .write ∧ s.txFrame = f) ∧ sendFrame f s = .next s) := by
  unfold sendFrame
  by_cases h : s.phase = .write ∧ s.txFrame = f
  · exact .inl ⟨h.1, h.2, if_pos h⟩
  · exact .inr ⟨h, if_neg h⟩

/-- The state after accept of an operation. -/
def accepted (o : Op) (addr : Addr) (p0 p1 : Word) (s : State) : State :=
  match o with
  | .beginOp => acceptBegin addr p0 p1 s
  | .endOp => acceptEnd p0 p1 s
  | .getSerial | .condition | .measureRaw | .selfTest | .heaterOff | .softReset => acceptChip o p0 p1 s

end Sys2Proof.Machine
end

