-- ==== Sys2Proof/Laws/PerInstr.lean ====
section
/-! SUPPORT. The per-instruction family `PortLength`: the number of bytes a well-formed instruction has is one that its
port reads (30_encoding.md R50, R51, R59; 41_framer.md R81). One lemma per constructor. -/

namespace Sys2Proof.Laws

open Sys2Proof.Machine

/-- The byte counts a port reads: a request record has six (log entry 5), a frame on the wire two or eight (R50), the
framer's operand two, five or eight (R81), the parser's at least `3n` (R93), the others as many as their rows. -/
def portReads (p : Port) (k : Nat) : Prop :=
  match p with
  | .request => k = 6
  | .wire => k = 2 ∨ k = 8
  | .eval .crcBit => k = 1
  | .eval .crcByte => k = 2
  | .eval .crc => k = 2
  | .eval .framer => k = 2 ∨ k = 5 ∨ k = 8
  | .eval (.parser n) => 3 * n ≤ k ∧ n ≤ 3
  | .eval .humidity => k = 4
  | .eval .temperature => k = 4

/-- A well-formed instruction is encoded in a number of bytes its port reads. -/
def PortLength.Statement (i : Instr) : Prop :=
  WellFormed i = true → portReads (portOf i) (encode i).length

theorem PortLength.beginOp (a : Addr) (p0 p1 : Word) : PortLength.Statement (.beginOp a p0 p1) := fun _ => rfl
theorem PortLength.endOp (a : Addr) (p0 p1 : Word) : PortLength.Statement (.endOp a p0 p1) := fun _ => rfl
theorem PortLength.getSerial (a : Addr) (p0 p1 : Word) : PortLength.Statement (.getSerial a p0 p1) := fun _ => rfl
theorem PortLength.condition (a : Addr) (p0 p1 : Word) : PortLength.Statement (.condition a p0 p1) := fun _ => rfl
theorem PortLength.measureRaw (a : Addr) (p0 p1 : Word) : PortLength.Statement (.measureRaw a p0 p1) := fun _ => rfl
theorem PortLength.selfTest (a : Addr) (p0 p1 : Word) : PortLength.Statement (.selfTest a p0 p1) := fun _ => rfl
theorem PortLength.heaterOff (a : Addr) (p0 p1 : Word) : PortLength.Statement (.heaterOff a p0 p1) := fun _ => rfl
theorem PortLength.softReset (a : Addr) (p0 p1 : Word) : PortLength.Statement (.softReset a p0 p1) := fun _ => rfl
theorem PortLength.getSerialWire : PortLength.Statement .getSerialWire := fun _ => .inl rfl
theorem PortLength.selfTestWire : PortLength.Statement .selfTestWire := fun _ => .inl rfl
theorem PortLength.heaterOffWire : PortLength.Statement .heaterOffWire := fun _ => .inl rfl
theorem PortLength.softResetWire : PortLength.Statement .softResetWire := fun _ => .inl rfl
theorem PortLength.conditionWire (h : Word) (x : Byte) (t : Word) (y : Byte) :
    PortLength.Statement (.conditionWire h x t y) := fun _ => .inr rfl
theorem PortLength.measureRawWire (h : Word) (x : Byte) (t : Word) (y : Byte) :
    PortLength.Statement (.measureRawWire h x t y) := fun _ => .inr rfl
theorem PortLength.crc8Bit (r : Byte) : PortLength.Statement (.crc8Bit r) := fun _ => rfl
theorem PortLength.crc8Byte (r b : Byte) : PortLength.Statement (.crc8Byte r b) := fun _ => rfl
theorem PortLength.crc8 (w : Word) : PortLength.Statement (.crc8 w) := fun _ => rfl

theorem PortLength.frame (c : Word) (pl : List Word) : PortLength.Statement (.frame c pl) := by
  intro h
  have hl : pl.length ≤ 2 := (frameDomain_iff pl).1 h
  match pl, hl with
  | [], _ => exact .inl rfl
  | [_], _ => exact .inr (.inl rfl)
  | [_, _], _ => exact .inr (.inr rfl)

theorem PortLength.parse (buf : List Byte) (n : Nat) : PortLength.Statement (.parse buf n) := by
  intro h
  exact ((parseDomain_iff buf n).1 h).symm

theorem PortLength.hum2tick (v : Float32Bits) : PortLength.Statement (.hum2tick v) := fun _ => rfl
theorem PortLength.temp2tick (v : Float32Bits) : PortLength.Statement (.temp2tick v) := fun _ => rfl

end Sys2Proof.Laws
end

