-- ==== Sys2Proof/Laws/Step.lean ====
section
/-! SUPPORT. What a step can do, said once: `step_cases` and the equations of `step` by phase. -/

namespace Sys2Proof.Machine

/-! ### The instructions -/

/-- A host operation is `operation` over its accept. -/
theorem exec_decodeRequest (r : Request) (s : State) :
    exec (decodeRequest r) s =
      operation (Op.ofSel r.opsel) (accepted (Op.ofSel r.opsel) r.addr r.p0 r.p1 s) s := by
  unfold decodeRequest
  cases Op.ofSel r.opsel <;> rfl

/-- The running operation takes its own step. -/
theorem exec_running {s : State} (h : s.phase ≠ .idle) : exec s.running s = runningStep s := by
  unfold State.running
  rw [exec_decodeRequest]
  simp only [Op.ofSel_sel]
  unfold operation
  rw [if_neg h, if_pos rfl]

/-- The constructors a frame on the wire decodes to, with the bytes of each. -/
theorem decodeWire_cases {bs : List Byte} {i : Instr} (h : decodeWire bs = .ok i) :
    encode i = bs ∧ portOf i = .wire ∧ ∀ s, exec i s = sendFrame bs s := by
  unfold decodeWire at h
  split at h
  · rename_i a b
    unfold decodeFrame0 at h
    have key : ∀ (c : Word), mkWord a b = c → hiByte c = a ∧ loByte c = b := by
      intro c hc; subst hc; simp
    split at h
    · rename_i hc; obtain ⟨h1, h2⟩ := key _ hc; cases h
      have e : encode .getSerialWire = [a, b] := by simp only [encode, frame0Bytes, h1, h2]
      exact ⟨e, rfl, fun s => by rw [← e]; rfl⟩
    split at h
    · rename_i hc; obtain ⟨h1, h2⟩ := key _ hc; cases h
      have e : encode .selfTestWire = [a, b] := by simp only [encode, frame0Bytes, h1, h2]
      exact ⟨e, rfl, fun s => by rw [← e]; rfl⟩
    split at h
    · rename_i hc; obtain ⟨h1, h2⟩ := key _ hc; cases h
      have e : encode .heaterOffWire = [a, b] := by simp only [encode, frame0Bytes, h1, h2]
      exact ⟨e, rfl, fun s => by rw [← e]; rfl⟩
    split at h
    · rename_i hc; obtain ⟨h1, h2⟩ := key _ hc; cases h
      have e : encode .softResetWire = [a, b] := by simp only [encode, frame0Bytes, h1, h2]
      exact ⟨e, rfl, fun s => by rw [← e]; rfl⟩
    split at h
    · cases h
    split at h
    · cases h
    · cases h
  · rename_i a b h1 h0 x t1 t0 y
    unfold decodeFrame2 at h
    have key : ∀ (c : Word), mkWord a b = c → hiByte c = a ∧ loByte c = b := by
      intro c hc; subst hc; simp
    split at h
    · rename_i hc; obtain ⟨e1, e2⟩ := key _ hc; cases h
      have e : encode (.conditionWire (mkWord h1 h0) x (mkWord t1 t0) y) = [a, b, h1, h0, x, t1, t0, y] := by
        simp [encode, frame2Bytes, e1, e2]
      exact ⟨e, rfl, fun s => by rw [← e]; rfl⟩
    split at h
    · rename_i hc; obtain ⟨e1, e2⟩ := key _ hc; cases h
      have e : encode (.measureRawWire (mkWord h1 h0) x (mkWord t1 t0) y) = [a, b, h1, h0, x, t1, t0, y] := by
        simp [encode, frame2Bytes, e1, e2]
      exact ⟨e, rfl, fun s => by rw [← e]; rfl⟩
    · cases h
  · cases h

/-! ### The step, by phase -/

/-- While an operation runs, the step is the one PHASE selects. -/
theorem step_busy {s : State} (hr : s.rst = false) (he : s.eval = none) (hp : s.phase ≠ .idle) :
    step s = runningStep s := by
  have hrun := exec_running hp
  unfold step fetch
  simp only [hr, he]
  cases hph : s.phase with
  | idle => exact absurd hph hp
  | write =>
    simp only [decode]
    cases hd : decodeWire s.txFrame with
    | error e => simpa [hd] using hrun
    | ok i =>
      simp only [Bool.false_eq_true, if_false, (decodeWire_cases hd).2.2]
      simp [sendFrame, hph, runningStep]
  | relOld => simpa using hrun
  | opening => simpa using hrun
  | delay => simpa using hrun
  | read => simpa using hrun
  | check => simpa using hrun
  | relFail => simpa using hrun

/-- In IDLE a presented request is accepted. -/
theorem step_accept {s : State} {r : Request} (hr : s.rst = false) (he : s.eval = none) (hp : s.phase = .idle)
    (hq : s.req = some r) : step s = .next (accepted (Op.ofSel r.opsel) r.addr r.p0 r.p1 s) := by
  simp [step, fetch, hr, he, hp, hq, exec_decodeRequest, operation]

/-- In IDLE without a request nothing happens. -/
theorem step_wait {s : State} (hr : s.rst = false) (he : s.eval = none) (hp : s.phase = .idle)
    (hq : s.req = none) : step s = .next s := by
  simp [step, fetch, hr, he, hp, hq]

/-- The hardware reset comes before everything. -/
theorem step_reset {s : State} (hr : s.rst = true) : step s = .next s.hardwareReset := by
  simp [step, fetch, hr]

/-- The evaluation port is served in every phase. -/
theorem step_eval {s : State} {p : Presented} {i : Instr} (hr : s.rst = false) (he : s.eval = some p)
    (hd : decode (.eval p.port) p.bytes = .ok i) : step s = exec i s := by
  simp [step, fetch, hr, he, hd]

/-- What decodes at the evaluation port is one of the seven pure functions; if it answers, it answers at the port. -/
theorem exec_of_decodeEval {e : EvalPort} {bs : List Byte} {i : Instr} {s t : State}
    (hd : decodeEval e bs = .ok i) (hx : exec i s = .next t) : ∃ v, t = s.answer v := by
  have prim : (∃ r, i = .crc8Bit r) ∨ (∃ r b, i = .crc8Byte r b) ∨ (∃ w, i = .crc8 w) ∨ (∃ c pl, i = .frame c pl) ∨
      (∃ b n, i = .parse b n) ∨ (∃ x, i = .hum2tick x) ∨ (∃ x, i = .temp2tick x) := by
    unfold decodeEval decodeFramer at hd
    repeat' split at hd
    all_goals first
      | (cases hd; simp)
      | cases hd
  obtain ⟨r, rfl⟩ | ⟨r, b, rfl⟩ | ⟨w, rfl⟩ | ⟨c, pl, rfl⟩ | ⟨b, n, rfl⟩ | ⟨x, rfl⟩ | ⟨x, rfl⟩ := prim
  · exact ⟨_, by cases hx; rfl⟩
  · exact ⟨_, by cases hx; rfl⟩
  · exact ⟨_, by cases hx; rfl⟩
  · simp only [exec, execFrame] at hx
    split at hx <;> cases hx
    exact ⟨_, rfl⟩
  · simp only [exec, execParse] at hx
    split at hx <;> cases hx
    · exact ⟨_, rfl⟩
    · exact ⟨_, rfl⟩
  · simp only [exec, execHum2tick] at hx
    split at hx <;> cases hx
    exact ⟨_, rfl⟩
  · simp only [exec, execTemp2tick] at hx
    split at hx <;> cases hx
    exact ⟨_, rfl⟩

/-- Everything a step can do: the hardware reset, an answer at the evaluation port, nothing in IDLE, an accept, or the
step of the running operation. -/
theorem step_cases {s t : State} (h : step s = .next t) :
    (s.rst = true ∧ t = s.hardwareReset) ∨
    (s.rst = false ∧ ∃ p, s.eval = some p ∧ ∃ v, t = s.answer v) ∨
    (s.rst = false ∧ s.eval = none ∧ s.phase = .idle ∧ s.req = none ∧ t = s) ∨
    (s.rst = false ∧ s.eval = none ∧ s.phase = .idle ∧
      ∃ r, s.req = some r ∧ t = accepted (Op.ofSel r.opsel) r.addr r.p0 r.p1 s) ∨
    (s.rst = false ∧ s.eval = none ∧ s.phase ≠ .idle ∧ runningStep s = .next t) := by
  cases hr : s.rst with
  | true => rw [step_reset hr] at h; cases h; exact .inl ⟨rfl, rfl⟩
  | false =>
    right
    cases he : s.eval with
    | some p =>
      left
      refine ⟨rfl, p, rfl, ?_⟩
      cases hd : decode (.eval p.port) p.bytes with
      | error e => simp [step, fetch, hr, he, hd] at h
      | ok i => rw [step_eval hr he hd] at h; exact exec_of_decodeEval hd h
    | none =>
      right
      by_cases hp : s.phase = .idle
      · cases hq : s.req with
        | none => rw [step_wait hr he hp hq] at h; cases h; exact .inl ⟨rfl, rfl, hp, rfl, rfl⟩
        | some r =>
          rw [step_accept hr he hp hq] at h
          cases h
          exact .inr (.inl ⟨rfl, rfl, hp, r, rfl, rfl⟩)
      · rw [step_busy hr he hp] at h
        exact .inr (.inr ⟨rfl, rfl, hp, h⟩)

/-- One more step of a run whose first step is known. -/
theorem run_succ {s t : State} (k : Nat) (h : step s = .next t) :
    Sys2Proof.core.run (k + 1) s = Sys2Proof.core.run k t := by
  have h' : Sys2Proof.core.step s = .next t := h
  simp only [Host.Core.run, h']

end Sys2Proof.Machine
end

