-- ==== Sys2Proof/Tests/Slice0.lean ====
section
/-! SUPPORT. The model's own tests: ill-formed terms are refused, every constructor is decoded from a word written out
from the spec's encoding, one step of each instruction against a vector of 95_test_vectors.md, and for every obligation
with hypotheses a state and operands that meet them. -/

namespace Sys2Proof.Tests

open Sys2Proof Sys2Proof.Machine

/-! ### WellFormed refuses ill-formed terms -/

/-- R50: the first checksum byte of a CONDITION frame is wrong by one bit. -/
theorem test_wf_conditionWire : WellFormed (.conditionWire 0x8000#16 0xA3#8 0x6666#16 0x93#8) = false := by
  decide +kernel

/-- R50: the second checksum byte of a MEASURE_RAW frame is wrong by one bit. -/
theorem test_wf_measureRawWire : WellFormed (.measureRawWire 0x8000#16 0xA2#8 0x6666#16 0x92#8) = false := by
  decide +kernel

/-- R82: three payload words. -/
theorem test_wf_frame : WellFormed (.frame 0x2619#16 [0#16, 0#16, 0#16]) = false := by decide

/-- R93: a byte short of two triplets; and four words. -/
theorem test_wf_parse :
    WellFormed (.parse [0x12#8, 0x34#8, 0x37#8, 0xAB#8, 0xCD#8] 2) = false ∧
    WellFormed (.parse (List.replicate 12 0x2B#8) 4) = false := by decide

/-- R143: a NaN, quiet and with the sign set. -/
theorem test_wf_hum2tick : WellFormed (.hum2tick 0x7FC00000#32) = false := by decide
theorem test_wf_temp2tick : WellFormed (.temp2tick 0xFFC00000#32) = false := by decide

/-! ### Decoding: every constructor from a word of the spec

The selectors are R53's, the frames R50's and R56's with the checksums of 95_test_vectors.md part 2.3. -/

theorem test_decode_beginOp : decode .request [0x00#8, 0x59#8, 0x12#8, 0x34#8, 0x56#8, 0x78#8] =
    .ok (.beginOp 0x59#8 0x1234#16 0x5678#16) := by decide
theorem test_decode_endOp : decode .request [0x01#8, 0x00#8, 0x00#8, 0x00#8, 0x00#8, 0x00#8] =
    .ok (.endOp 0#8 0#16 0#16) := by decide
theorem test_decode_getSerial : decodeTableWord 8 0x02 = some (.getSerial 0#8 0#16 0#16) := by decide
theorem test_decode_condition : decode .request [0x03#8, 0x00#8, 0x80#8, 0x00#8, 0x66#8, 0x66#8] =
    .ok (.condition 0#8 0x8000#16 0x6666#16) := by decide
theorem test_decode_measureRaw : decodeTableWord 8 0x04 = some (.measureRaw 0#8 0#16 0#16) := by decide
theorem test_decode_selfTest : decodeTableWord 8 0x05 = some (.selfTest 0#8 0#16 0#16) := by decide
theorem test_decode_heaterOff : decodeTableWord 8 0x06 = some (.heaterOff 0#8 0#16 0#16) := by decide
theorem test_decode_softReset : decodeTableWord 8 0x07 = some (.softReset 0#8 0#16 0#16) := by decide
/-- Log entry 25: a FRAME operand whose payload word does not carry its checksum is rejected by name. -/
theorem test_decode_frame_mismatch :
    decode (.eval .framer) [0x26#8, 0x19#8, 0x12#8, 0x34#8, 0x36#8] = .error .checksumMismatch := by decide +kernel

/-- Log entry 5: a bit above the selector is rejected by name. -/
theorem test_decode_reserved : decode .request [0x08#8, 0#8, 0#8, 0#8, 0#8, 0#8] = .error .reservedBits := by decide

theorem test_decode_getSerialWire : decode .wire [0x36#8, 0x82#8] = .ok .getSerialWire := by decide
theorem test_decode_selfTestWire : decode .wire [0x28#8, 0x0E#8] = .ok .selfTestWire := by decide
theorem test_decode_heaterOffWire : decode .wire [0x36#8, 0x15#8] = .ok .heaterOffWire := by decide
theorem test_decode_softResetWire : decode .wire [0x00#8, 0x06#8] = .ok .softResetWire := by decide
/-- V-F5. -/
theorem test_decode_conditionWire :
    decode .wire [0x26#8, 0x12#8, 0x80#8, 0x00#8, 0xA2#8, 0x66#8, 0x66#8, 0x93#8] =
      .ok (.conditionWire 0x8000#16 0xA2#8 0x6666#16 0x93#8) := by decide
/-- V-F9. -/
theorem test_decode_measureRawWire :
    decode .wire [0x26#8, 0x19#8, 0x40#8, 0x00#8, 0x08#8, 0x5F#8, 0x16#8, 0x1A#8] =
      .ok (.measureRawWire 0x4000#16 0x08#8 0x5F16#16 0x1A#8) := by decide
/-- R58: a command word that is none of the six; a two-byte frame of a command that has a payload. -/
theorem test_decode_wire_rejects :
    decode .wire [0x36#8, 0x83#8] = .error .unknownCommand ∧
    decode .wire [0x26#8, 0x12#8] = .error .wrongLength := by decide

theorem test_decode_crc8Bit : decode (.eval .crcBit) [0xAC#8] = .ok (.crc8Bit 0xAC#8) := by decide
theorem test_decode_crc8Byte : decode (.eval .crcByte) [0xFF#8, 0xBE#8] = .ok (.crc8Byte 0xFF#8 0xBE#8) := by decide
theorem test_decode_crc8 : decodeTableWord 16 0xBEEF = some (.crc8 0xBEEF#16) := by decide
/-- V-F10. -/
theorem test_decode_frame : decode (.eval .framer) [0x26#8, 0x19#8, 0x12#8, 0x34#8, 0x37#8] =
    .ok (.frame 0x2619#16 [0x1234#16]) := by decide +kernel
/-- V-P1. -/
theorem test_decode_parse : decode (.eval (.parser 2)) [0x12#8, 0x34#8, 0x37#8, 0xAB#8, 0xCD#8, 0x6F#8] =
    .ok (.parse [0x12#8, 0x34#8, 0x37#8, 0xAB#8, 0xCD#8, 0x6F#8] 2) := by decide
theorem test_decode_hum2tick : decode (.eval .humidity) [0x42#8, 0x48#8, 0x00#8, 0x00#8] =
    .ok (.hum2tick 0x42480000#32) := by decide
theorem test_decode_temp2tick : decode (.eval .temperature) [0x41#8, 0xC8#8, 0x00#8, 0x00#8] =
    .ok (.temp2tick 0x41C80000#32) := by decide

/-! ### States for the tests -/

/-- Collaborators with one answer of each kind, and two releases; `rd` is what the read answers. -/
def answers (rd : Option (List Byte)) : Env := ⟨[some ⟨1⟩], [true], [false], [rd], 2, 1⟩

/-- A state in `ph` with operation `o` running or last run, bound or not, handle 7, address 0x59. -/
def stateAt (ph : Phase) (o : Op) (b : Bool) (e : Env) : State :=
  { State.reset with phase := ph, op := o, bound := b, hnd := ⟨7⟩, addr := 0x59#8, env := e }

/-- The next state of an outcome, if it is one. -/
def after (r : Result) : Option State := match r with
  | .next s => some s
  | .fault _ => none
  | .refused _ => none

/-- An idle, unbound block. -/
def unbound : State := stateAt .idle .endOp false (answers none)

/-- An idle, bound block. -/
def bound : State := stateAt .idle .heaterOff true (answers none)

/-- The nine bytes of V-S1's answer. -/
def serialBytes : List Byte := [0x01#8, 0x23#8, 0xA0#8, 0x45#8, 0x67#8, 0x53#8, 0x89#8, 0xAB#8, 0x77#8]

/-! ### One step of each instruction -/

/-- V-S2: the OPEN step of a BEGIN whose open fails makes no release and ends with E_OPEN. -/
theorem test_begin_open_fails :
    (after (exec (.beginOp 0x59#8 0#16 0#16)
      (stateAt .opening .beginOp false { answers none with opens := [none] }))).map
        (fun t => (t.status, t.phase, t.bound, t.trace)) =
      some (.eOpen, .idle, false, [.opened 0x59#8 none]) := by decide

/-- V-S9, first step: BEGIN on a bound block goes to REL_OLD. -/
theorem test_begin_accept_bound :
    (after (exec (.beginOp 0x5A#8 0#16 0#16) bound)).map (fun t => (t.phase, t.addr, t.trace)) =
      some (.relOld, 0x5A#8, []) := by decide

/-- V-S12: END on an unbound block is one step, OK, without a call. -/
theorem test_end_unbound :
    (after (exec (.endOp 0#8 0#16 0#16) unbound)).map (fun t => (t.status, t.phase, t.trace)) =
      some (.ok, .idle, []) := by decide

/-- V-S11, second step: the release. -/
theorem test_end_releases :
    (after (exec (.endOp 0#8 0#16 0#16) (stateAt .relOld .endOp true (answers none)))).map
        (fun t => (t.bound, t.phase, t.trace)) = some (false, .idle, [.released ⟨7⟩]) := by decide

/-- V-S15, first step: GET_SERIAL's frame. -/
theorem test_getSerial_accept :
    (after (exec (.getSerial 0#8 0#16 0#16) bound)).map (fun t => (t.phase, t.txFrame)) =
      some (.write, [0x36#8, 0x82#8]) := by decide

/-- V-S15, last step: no identity check outside BEGIN. -/
theorem test_getSerial_check :
    (after (exec (.getSerial 0#8 0#16 0#16)
      { stateAt .check .getSerial true (answers none) with
        rxbuf := [0x00#8, 0x00#8, 0x81#8, 0x00#8, 0x00#8, 0x81#8, 0x00#8, 0x00#8, 0x81#8], rxlen := 9 })).map
        (fun t => (t.status, t.phase, t.nwords, t.words)) = some (.ok, .idle, 3, [0, 0, 0]) := by decide +kernel

/-- V-S16, first step: CONDITION's frame. -/
theorem test_condition_accept :
    (after (exec (.condition 0#8 0x8000#16 0x6666#16) bound)).map (fun t => (t.phase, t.txFrame)) =
      some (.write, [0x26#8, 0x12#8, 0x80#8, 0x00#8, 0xA2#8, 0x66#8, 0x66#8, 0x93#8]) := by decide +kernel

/-- V-S16, the delay. -/
theorem test_condition_delay :
    (after (exec (.condition 0#8 0#16 0#16) (stateAt .delay .condition true (answers none)))).map
        (fun t => (t.phase, t.trace)) = some (.read, [.slept 50]) := by decide

/-- V-S13: MEASURE_RAW while unbound latches its operands and makes no call. -/
theorem test_measureRaw_not_ready :
    (after (exec (.measureRaw 0#8 0x8000#16 0x6666#16) unbound)).map
        (fun t => (t.status, t.phase, t.p0, t.p1, t.trace)) =
      some (.eNotReady, .idle, 0x8000#16, 0x6666#16, []) := by decide

/-- V-S18, last step: the second triplet is bad, so the valid first word is not loaded. -/
theorem test_measureRaw_check :
    (after (exec (.measureRaw 0#8 0#16 0#16)
      { stateAt .check .measureRaw true (answers none) with
        rxbuf := [0x75#8, 0x30#8, 0x08#8, 0x4E#8, 0x21#8, 0xE3#8, 0#8, 0#8, 0#8], rxlen := 6 })).map
        (fun t => (t.status, t.phase, t.nwords, t.words)) = some (.eCrc, .idle, 0, [0, 0, 0]) := by decide +kernel

/-- V-S22, last step: a fault the chip reports is data, and the flags follow the word. -/
theorem test_selfTest_check :
    (after (exec (.selfTest 0#8 0#16 0#16)
      { stateAt .check .selfTest true (answers none) with
        rxbuf := [0xD4#8, 0x01#8, 0xF7#8, 0#8, 0#8, 0#8, 0#8, 0#8, 0#8], rxlen := 3 })).map
        (fun t => (t.status, t.w0, t.stPass, t.stVocFail, t.stNoxFail)) =
      some (.ok, 0xD401#16, false, true, false) := by decide +kernel

/-- V-S21, the delay. -/
theorem test_selfTest_delay :
    (after (exec (.selfTest 0#8 0#16 0#16) (stateAt .delay .selfTest true (answers none)))).map
        (fun t => (t.phase, t.trace)) = some (.read, [.slept 320]) := by decide

/-- V-S27, last step: HEATER_OFF reads nothing. -/
theorem test_heaterOff_delay :
    (after (exec (.heaterOff 0#8 0#16 0#16) (stateAt .delay .heaterOff true (answers none)))).map
        (fun t => (t.status, t.phase, t.trace)) = some (.ok, .idle, [.slept 1]) := by decide

/-- V-S30, second step: the general call's `fail` is ignored. -/
theorem test_softReset_write :
    (after (exec (.softReset 0#8 0#16 0#16)
      ((stateAt .write .softReset true (answers none)).loadTx [0x00#8, 0x06#8]))).map
        (fun t => (t.status, t.phase, t.trace)) =
      some (.ok, .delay, [.wroteGeneral ⟨7⟩ [0x00#8, 0x06#8] false]) := by decide

/-- V-S19, the write: a failed write of a frame aborts with E_WRITE, without sleep or read. -/
theorem test_measureRawWire_fails :
    (after (exec (.measureRawWire 0x8000#16 0xA2#8 0x6666#16 0x93#8)
      ((stateAt .write .measureRaw true { answers none with writes := [false] }).loadTx
        [0x26#8, 0x19#8, 0x80#8, 0x00#8, 0xA2#8, 0x66#8, 0x66#8, 0x93#8]))).map
        (fun t => (t.status, t.phase, t.bound)) = some (.eWrite, .idle, true) := by decide +kernel

/-- V-S16, the write. -/
theorem test_conditionWire_sent :
    (after (exec (.conditionWire 0x8000#16 0xA2#8 0x6666#16 0x93#8)
      ((stateAt .write .condition true (answers none)).loadTx
        [0x26#8, 0x12#8, 0x80#8, 0x00#8, 0xA2#8, 0x66#8, 0x66#8, 0x93#8]))).map
        (fun t => (t.phase, t.trace)) =
      some (.delay, [.wrote ⟨7⟩ [0x26#8, 0x12#8, 0x80#8, 0x00#8, 0xA2#8, 0x66#8, 0x66#8, 0x93#8] true]) := by
  decide +kernel

/-- V-S21, V-S27 and V-S1, the writes. -/
theorem test_short_frames_sent :
    ((after (exec .selfTestWire
      ((stateAt .write .selfTest true (answers none)).loadTx [0x28#8, 0x0E#8]))).map (·.trace) =
        some [.wrote ⟨7⟩ [0x28#8, 0x0E#8] true]) ∧
    ((after (exec .heaterOffWire
      ((stateAt .write .heaterOff true (answers none)).loadTx [0x36#8, 0x15#8]))).map (·.trace) =
        some [.wrote ⟨7⟩ [0x36#8, 0x15#8] true]) ∧
    ((after (exec .getSerialWire
      ((stateAt .write .beginOp true (answers none)).loadTx [0x36#8, 0x82#8]))).map (·.trace) =
        some [.wrote ⟨7⟩ [0x36#8, 0x82#8] true]) := by decide

/-- The value an instruction answers at the evaluation port of the reset state. -/
def answerOf (i : Instr) : Option PortOut := (after (exec i State.reset)).bind (·.out)

/-- V-B1 to V-B10. -/
theorem test_crc8Bit :
    [0x00#8, 0x01#8, 0x40#8, 0x7F#8, 0x80#8, 0x81#8, 0xAC#8, 0xFF#8, 0x98#8, 0x31#8].map crc8Bit =
      [0x00#8, 0x02#8, 0x80#8, 0xFE#8, 0x31#8, 0x33#8, 0x69#8, 0xCF#8, 0x01#8, 0x62#8] := by decide

/-- V-Y1 to V-Y11. -/
theorem test_crc8Byte :
    [(0xFF#8, 0x00#8), (0xFF#8, 0xFF#8), (0x00#8, 0x00#8), (0x00#8, 0x01#8), (0x00#8, 0x80#8), (0x00#8, 0xFF#8),
      (0xFF#8, 0xBE#8), (0x0C#8, 0xEF#8), (0xAC#8, 0x00#8), (0xFF#8, 0x80#8), (0xFF#8, 0x66#8)].map
        (fun p => crc8Byte p.1 p.2) =
      [0xAC#8, 0x00#8, 0x00#8, 0x31#8, 0x7A#8, 0xAC#8, 0x0C#8, 0x92#8, 0x81#8, 0xD6#8, 0xB1#8] := by decide +kernel

/-- V-C1 to V-C25, those that are not repeated elsewhere. -/
theorem test_checksum :
    [0x0000#16, 0xFFFF#16, 0xBEEF#16, 0x7FFF#16, 0x8001#16, 0x6667#16, 0x0001#16, 0x0100#16, 0x00FF#16, 0xFF00#16,
      0xA5A5#16, 0x1234#16, 0xABCD#16, 0x2B2B#16, 0xD400#16, 0x7530#16, 0x4E20#16, 0xDEAD#16].map checksum =
      [0x81#8, 0xAC#8, 0x92#8, 0x8F#8, 0x93#8, 0xA2#8, 0xB0#8, 0x75#8, 0x2D#8, 0x00#8,
        0x00#8, 0x37#8, 0x6F#8, 0x2B#8, 0xC6#8, 0x08#8, 0xE3#8, 0x98#8] := by decide +kernel

/-- The checksums R72's note gives for the command words, none of which the framer appends. -/
theorem test_crc8 : answerOf (.crc8 0x2612#16) = some (.byte 0x26#8) ∧ answerOf (.crc8 0x0006#16) = some (.byte 0x27#8) :=
  by decide +kernel

/-- V-F8, V-F11. -/
theorem test_frame :
    answerOf (.frame 0x2612#16 [0xBEEF#16, 0xBEEF#16]) =
      some (.bytes [0x26#8, 0x12#8, 0xBE#8, 0xEF#8, 0x92#8, 0xBE#8, 0xEF#8, 0x92#8]) ∧
    answerOf (.frame 0xFFFF#16 [0xFFFF#16, 0xFFFF#16]) =
      some (.bytes [0xFF#8, 0xFF#8, 0xFF#8, 0xFF#8, 0xAC#8, 0xFF#8, 0xFF#8, 0xAC#8]) := by decide +kernel

/-- V-P1, V-P2, V-P13. -/
theorem test_parse :
    answerOf (.parse [0x12#8, 0x34#8, 0x37#8, 0xAB#8, 0xCD#8, 0x6F#8] 2) = some (.words [0x1234#16, 0xABCD#16]) ∧
    answerOf (.parse [0x12#8, 0x34#8, 0x37#8, 0xAB#8, 0xCD#8, 0x6E#8] 2) = some .crcFail ∧
    answerOf (.parse [0x34#8, 0x12#8, 0x37#8] 1) = some .crcFail := by decide +kernel

/-- V-P18, V-P20. -/
theorem test_parse_ignores :
    answerOf (.parse [0xDE#8, 0xAD#8, 0xBE#8] 0) = some (.words []) ∧
    answerOf (.parse [0x12#8, 0x34#8, 0x37#8, 0xFF#8] 1) = some (.words [0x1234#16]) := by decide +kernel

/-- V-U1, V-U2, V-U3, V-U5, V-U6, V-U7, V-U11, V-U12, V-U24 (operands 0, 100, 50, 25, 75, 0.5, -10, 150, 32768). -/
theorem test_hum2tick :
    [0x00000000#32, 0x42C80000#32, 0x42480000#32, 0x41C80000#32, 0x42960000#32, 0x3F000000#32, 0xC1200000#32,
      0x43160000#32, 0x47000000#32].map (fun v => answerOf (.hum2tick v)) =
      [0x0000#16, 0xFFFF#16, 0x8000#16, 0x4000#16, 0xBFFF#16, 0x0148#16, 0x0000#16, 0xFFFF#16, 0xFFFF#16].map
        (fun w => some (.word w)) := by decide

/-- V-U13 to V-U23 (operands -45, 130, 25, 0, 100, 42.5, -40, 20, 37, -100, 200). -/
theorem test_temp2tick :
    [0xC2340000#32, 0x43020000#32, 0x41C80000#32, 0x00000000#32, 0x42C80000#32, 0x422A0000#32, 0xC2200000#32,
      0x41A00000#32, 0x42140000#32, 0xC2C80000#32, 0x43480000#32].map (fun v => answerOf (.temp2tick v)) =
      [0x0000#16, 0xFFFF#16, 0x6666#16, 0x41D4#16, 0xD41C#16, 0x8000#16, 0x0750#16, 0x5F16#16, 0x77F4#16, 0x0000#16,
        0xFFFF#16].map (fun w => some (.word w)) := by decide

/-- V-U4, V-U8, V-U9, V-U10 at the binary32 number nearest to the vector's decimal (49.999, 99.9, 0.001, 0.0007): the
vectors' results hold there too. -/
theorem test_hum2tick_fractions :
    [0x4247FEFA#32, 0x42C7CCCD#32, 0x3A83126F#32, 0x3A378034#32].map (fun v => answerOf (.hum2tick v)) =
      [0x7FFF#16, 0xFFBD#16, 0x0001#16, 0x0000#16].map (fun w => some (.word w)) := by decide

/-- R143, U6: a NaN is refused, an infinity clamps. -/
theorem test_converter_specials :
    exec (.hum2tick 0x7FC00000#32) State.reset = .refused .nanOperand ∧
    exec (.temp2tick 0x7FC00000#32) State.reset = .refused .nanOperand ∧
    answerOf (.hum2tick 0x7F800000#32) = some (.word 0xFFFF#16) ∧
    answerOf (.temp2tick 0xFF800000#32) = some (.word 0x0000#16) := by
  refine ⟨rfl, rfl, ?_, ?_⟩ <;> decide

/-- V-R1: the result port right after reset. -/
theorem test_reset_port : State.reset.resultPort =
    some ⟨0, 1, 0, 0#16, 0#16, 0#16, false, false, false, false⟩ := by decide

/-- V-R4, V-R5: the checksum port after reset, and during a self-test's delay. -/
theorem test_checksum_port :
    ((after (step { State.reset with eval := some ⟨.crc, [0xBE#8, 0xEF#8]⟩ })).bind (·.out) =
      some (.byte 0x92#8)) ∧
    ((after (step { stateAt .delay .selfTest true (answers none) with eval := some ⟨.crc, [0#8, 0#8]⟩ })).map
      (fun t => (t.out, t.phase, t.trace)) = some (some (.byte 0x81#8), .delay, [])) := by decide +kernel

/-- R61 with V-U5 and V-U20: MEASURE_RAW_PHYS 25, 20. -/
theorem test_pseudo : (Line.measureRawPhys 0x41C80000#32 0x41A00000#32).request =
    some ⟨4, 0, 0x4000#16, 0x5F16#16⟩ := by decide

/-! ### States and operands that meet the hypotheses of the obligations -/

/-- A state about to take a request. -/
def asked (s : State) (r : Request) : State := { s with req := some r }

/-- Collaborators that answer no call. -/
def mute (ph : Phase) (o : Op) : State := stateAt ph o true Env.silent

theorem witness_ResetHoldsTheSpecValues : unbound.phase = .idle ∧ unbound.bound = false := by decide

theorem witness_HardwareResetMakesNoExternalCall :
    ({ stateAt .read .beginOp true (answers none) with rst := true } : State).rst = true := by decide

/-- One state for each clause: the evaluation port, a request, nothing to do, the frame in WRITE, another phase. -/
theorem witness_StepRunsTheDecodedInstruction :
    (decode (.eval .crc) [0xBE#8, 0xEF#8] = .ok (.crc8 0xBEEF#16)) ∧
    (let s := asked unbound ⟨7, 0, 0, 0⟩; s.rst = false ∧ s.eval = none ∧ s.phase = .idle ∧ s.req = some ⟨7, 0, 0, 0⟩) ∧
    (unbound.rst = false ∧ unbound.eval = none ∧ unbound.phase = .idle ∧ unbound.req = none) ∧
    (let s := (stateAt .write .softReset true (answers none)).loadTx [0x00#8, 0x06#8];
      s.rst = false ∧ s.eval = none ∧ s.phase = .write ∧ decode .wire s.txFrame = .ok .softResetWire) ∧
    (let s := stateAt .relFail .beginOp true (answers none); s.rst = false ∧ s.eval = none ∧ s.phase ≠ .idle) := by
  decide

theorem witness_FetchWordRunsTheDecodedWord :
    decodeTableWord 64 0x26128000A2666693 = some (.conditionWire 0x8000#16 0xA2#8 0x6666#16 0x93#8) := by decide

theorem witness_DecodeInvertsEncode :
    WellFormed (.measureRawWire 0x0000#16 0x81#8 0xFFFF#16 0xAC#8) = true ∧ WellFormed (.frame 0x2619#16 [0#16, 0#16]) ∧
    WellFormed (.parse (List.replicate 9 0x2B#8) 3) = true ∧ WellFormed (.hum2tick 0x7F800000#32) = true := by
  decide +kernel

theorem witness_EncodeInvertsDecode :
    decode .wire [0x26#8, 0x12#8, 0#8, 0#8, 0x81#8, 0xFF#8, 0xFF#8, 0xAC#8] =
      .ok (.conditionWire 0x0000#16 0x81#8 0xFFFF#16 0xAC#8) ∧
    decode (.eval (.parser 0)) [] = .ok (.parse [] 0) := by decide

theorem witness_PseudoOperationsExpand :
    humidityTicks 0x42480000#32 = some 0x8000#16 ∧ temperatureTicks 0x41C80000#32 = some 0x6666#16 := by decide

/-- One, two and three different bits. -/
theorem witness_ParserDetectsUpToThreeFlips :
    ([23] : List (Fin 24)).Nodup ∧ ([0, 23] : List (Fin 24)).Nodup ∧ ([0, 8, 23] : List (Fin 24)).Nodup ∧
    ([0, 8, 23] : List (Fin 24)).length ≤ 3 := by decide

/-- The shortest payload that is refused. -/
theorem witness_FrameLayoutAndDomain : 2 < ([0#16, 0#16, 0#16] : List Word).length := by decide

/-- The longest payload in the contract, and two equal frames. -/
theorem witness_FrameParseRoundTrip :
    ([0#16, 0xFFFF#16] : List Word).length ≤ 2 ∧
    frameBytes 0x2619#16 [0x8000#16] = frameBytes 0x2619#16 [0x8000#16] ∧
    ([0x8000#16] : List Word).length = ([0x8000#16] : List Word).length := by decide +kernel

/-- Three words; bytes of one triplet that are no word's; a byte short of one triplet, and a fourth word. -/
theorem witness_ParseAnswersWordsOrFails :
    ([0#16, 1#16, 2#16] : List Word).length ≤ 3 ∧
    (∀ ws : List Word, ws.length = 1 → ∀ rest, ([0x00#8, 0x00#8, 0x00#8] : List Byte) ≠ triplets ws ++ rest) ∧
    ¬(1 ≤ 3 ∧ 3 * 1 ≤ ([0x2B#8, 0x2B#8] : List Byte).length) ∧
    ¬(4 ≤ 3 ∧ 3 * 4 ≤ (List.replicate 12 0x2B#8).length) := by
  refine ⟨by decide, ?_, by decide, by decide⟩
  exact scanTriplets_none_length (by decide) (by decide +kernel)

/-- The longest response, exactly. -/
theorem witness_ParseIsExact : 3 ≤ 3 ∧ 3 * 3 ≤ serialBytes.length := by decide

theorem witness_ChecksumPortAnswersInEveryPhase :
    let s := { stateAt .delay .selfTest true (answers none) with eval := some ⟨.crc, [hiByte 0xBEEF#16, loByte 0xBEEF#16]⟩ }
    s.rst = false ∧ s.eval = some ⟨.crc, [hiByte 0xBEEF#16, loByte 0xBEEF#16]⟩ := by decide

theorem witness_ResultPortShowsTheResultWhileIdle :
    bound.phase = .idle ∧ (stateAt .check .selfTest true (answers none)).phase ≠ .idle := by decide

theorem witness_AcceptLatchesAndSelectsThePhase : unbound.phase = .idle ∧ bound.phase = .idle := by decide

theorem witness_UnboundChipOperationIsNotReady : unbound.phase = .idle ∧ unbound.bound = false := by decide

/-- Two unbound and two bound states that differ in much else. The request is free: opsel 0 (BEGIN) and another. -/
theorem witness_AcceptExaminesOnlyBound :
    (let s' := { bound with op := .selfTest, status := .eCrc, p0 := 5, hnd := ⟨9⟩ };
      bound.phase = .idle ∧ s'.phase = .idle ∧ bound.bound = s'.bound ∧ bound ≠ s') ∧
    (let s' := { unbound with op := .getSerial, status := .eNotReady, addr := 0x5A#8 };
      unbound.phase = .idle ∧ s'.phase = .idle ∧ unbound.bound = s'.bound ∧ unbound ≠ s') ∧
    Op.ofSel 0 = .beginOp ∧ Op.ofSel 3 ≠ .beginOp := by decide

theorem witness_RelOldReleasesTheBinding :
    let s := stateAt .relOld .beginOp true (answers none)
    s.phase = .relOld ∧ Op.ofSel 0 = s.op ∧ s.env.releases = 1 + 1 := by decide

/-- Both answers. -/
theorem witness_OpenBindsAndFramesOrFails :
    (let s := stateAt .opening .beginOp false (answers none);
      s.phase = .opening ∧ s.op = .beginOp ∧ s.bound = false ∧ s.env.opens = some ⟨1⟩ :: []) ∧
    (let s := stateAt .opening .beginOp false { answers none with opens := [none] };
      s.phase = .opening ∧ s.op = .beginOp ∧ s.bound = false ∧ s.env.opens = none :: []) := by decide

/-- The general call, a write that succeeds and one that fails. -/
theorem witness_WriteSendsTheFrame :
    (let s := stateAt .write .softReset true (answers none);
      s.phase = .write ∧ Op.ofSel 7 = s.op ∧ s.op = .softReset ∧ s.env.generals = false :: []) ∧
    (let s := stateAt .write .condition true (answers none);
      s.phase = .write ∧ Op.ofSel 3 = s.op ∧ s.op ≠ .softReset ∧ s.env.writes = true :: []) ∧
    (let s := stateAt .write .beginOp true { answers none with writes := [false] };
      s.phase = .write ∧ Op.ofSel 0 = s.op ∧ s.op ≠ .softReset ∧ s.env.writes = false :: []) := by decide

theorem witness_DelaySleepsThenReadsOrEnds :
    let s := stateAt .delay .softReset true (answers none)
    s.phase = .delay ∧ Op.ofSel 7 = s.op ∧ s.env.sleeps = 0 + 1 ∧
    (s.op, 20) ∈ [(Op.beginOp, 1), (.getSerial, 1), (.condition, 50), (.measureRaw, 50), (.selfTest, 320),
      (.heaterOff, 1), (.softReset, 20)] := by decide

/-- Nine bytes; an answer a byte short; `fail`. -/
theorem witness_ReadFetchesTheWholeResponse :
    (let s := stateAt .read .getSerial true (answers (some serialBytes));
      s.phase = .read ∧ Op.ofSel 2 = s.op ∧ serialBytes.length = 3 * 3 ∧ s.env.reads = some serialBytes :: []) ∧
    (let s := stateAt .read .selfTest true (answers (some [0xD4#8, 0x00#8]));
      s.phase = .read ∧ Op.ofSel 5 = s.op ∧ ([0xD4#8, 0x00#8] : List Byte).length ≠ 3 * 1 ∧
      s.env.reads = some [0xD4#8, 0x00#8] :: []) ∧
    (let s := stateAt .read .beginOp true (answers none);
      s.phase = .read ∧ Op.ofSel 0 = s.op ∧ s.env.reads = none :: []) := by decide

/-- A state in CHECK with nine received bytes. -/
def received (o : Op) (bs : List Byte) : State :=
  { stateAt .check o true (answers none) with rxbuf := bs, rxlen := 9 }

/-- A bad checksum; an all-ones serial number; a good one. -/
theorem witness_CheckLoadsAllWordsOrNone :
    (let s := received .getSerial (List.replicate 9 0x00#8);
      s.phase = .check ∧ Op.ofSel 2 = s.op ∧ parseBytes s.rxFrame (respWords s.op) = .badCrc) ∧
    (let s := received .beginOp [0xFF#8, 0xFF#8, 0xAC#8, 0xFF#8, 0xFF#8, 0xAC#8, 0xFF#8, 0xFF#8, 0xAC#8];
      s.phase = .check ∧ Op.ofSel 0 = s.op ∧ s.op = .beginOp ∧
      parseBytes s.rxFrame (respWords s.op) = .ok [0xFFFF#16, 0xFFFF#16, 0xFFFF#16] ∧
      identBad [0xFFFF#16, 0xFFFF#16, 0xFFFF#16] = true) ∧
    (let s := received .beginOp serialBytes;
      s.phase = .check ∧ Op.ofSel 0 = s.op ∧
      parseBytes s.rxFrame (respWords s.op) = .ok [0x0123#16, 0x4567#16, 0x89AB#16] ∧
      identBad [0x0123#16, 0x4567#16, 0x89AB#16] = false) := by decide +kernel

theorem witness_RelFailReleasesAndKeepsTheCode :
    let s := { stateAt .relFail .beginOp true (answers none) with status := .eIdent }
    s.phase = .relFail ∧ s.op = .beginOp ∧ s.env.releases = 1 + 1 := by decide

theorem witness_AbortWritesStatusAndPhaseOnly :
    let s := stateAt .write .beginOp true { answers none with writes := [false] }
    s.rst = false ∧ s.eval = none ∧ s.phase ≠ .idle ∧
    ((after (step s)).map (fun t => decide (t.status ≠ s.status)) = some true) := by decide

/-- One silent state for each of the seven cases. -/
theorem witness_SilentCollaboratorStallsTheBlock :
    ((mute .relOld .endOp).phase = .relOld ∧ (mute .relOld .endOp).env.releases = 0) ∧
    ((mute .relFail .beginOp).phase = .relFail ∧ (mute .relFail .beginOp).env.releases = 0) ∧
    ((mute .opening .beginOp).phase = .opening ∧ (mute .opening .beginOp).env.opens = []) ∧
    ((mute .write .softReset).phase = .write ∧ (mute .write .softReset).op = .softReset ∧
      (mute .write .softReset).env.generals = []) ∧
    ((mute .write .beginOp).phase = .write ∧ (mute .write .beginOp).op ≠ .softReset ∧
      (mute .write .beginOp).env.writes = []) ∧
    ((mute .delay .heaterOff).phase = .delay ∧ (mute .delay .heaterOff).op ≠ .endOp ∧
      (mute .delay .heaterOff).env.sleeps = 0) ∧
    ((mute .read .selfTest).phase = .read ∧ respWords (mute .read .selfTest).op ≠ 0 ∧
      (mute .read .selfTest).env.reads = []) ∧
    (mute .read .selfTest).rst = false ∧ (mute .read .selfTest).eval = none := by decide

theorem witness_RequestPortIgnoredWhileBusy :
    let s := asked (stateAt .delay .condition true (answers none)) ⟨1, 0, 0, 0⟩
    s.rst = false ∧ s.eval = none ∧ s.phase ≠ .idle ∧ (after (step s)).isSome = true := by decide

theorem witness_OtherRequestWhileBusyHasNoEffect :
    let s := stateAt .delay .condition true (answers none)
    s.phase ≠ .idle ∧ Op.ofSel 1 ≠ s.op := by decide

/-- A frame that goes by general call, and one that goes to the device. -/
theorem witness_WireFrameIsSentInOneCall :
    (let s := (stateAt .write .softReset true (answers none)).loadTx [0x00#8, 0x06#8];
      s.phase = .write ∧ s.txbuf.take s.txlen.toNat = encode .softResetWire ∧ s.op = .softReset ∧
      s.env.generals = false :: []) ∧
    (let s := (stateAt .write .condition true (answers none)).loadTx
        [0x26#8, 0x12#8, 0x80#8, 0x00#8, 0xA2#8, 0x66#8, 0x66#8, 0x93#8];
      s.phase = .write ∧
      s.txbuf.take s.txlen.toNat = encode (.conditionWire 0x8000#16 0xA2#8 0x6666#16 0x93#8) ∧
      s.op ≠ .softReset ∧ s.env.writes = true :: []) := by decide

theorem witness_FrameNotInTxbufIsNotSent :
    portOf .selfTestWire = .wire ∧ ¬(bound.phase = .write ∧ bound.txFrame = encode .selfTestWire) := by decide

/-- Operations on a bound block: MEASURE_RAW, CONDITION, GET_SERIAL, SELF_TEST, HEATER_OFF and SOFT_RESET. -/
theorem witness_operations_on_a_bound_block :
    let e := answers (some [hiByte 0x7530#16, loByte 0x7530#16, checksum 0x7530#16])
    let s := stateAt .idle .endOp true e
    s.rst = false ∧ s.eval = none ∧ s.phase = .idle ∧ s.bound = true ∧ s.env.writes = true :: [] ∧
    s.env.sleeps = 0 + 1 ∧ s.env.generals = false :: [] ∧ s.env.releases = 1 + 1 ∧
    s.env.reads = some [hiByte 0x7530#16, loByte 0x7530#16, checksum 0x7530#16] :: [] := by decide +kernel

theorem witness_MeasureRawReturnsTwoWords :
    let rd := [hiByte 0x7530#16, loByte 0x7530#16, checksum 0x7530#16, hiByte 0x4E20#16, loByte 0x4E20#16,
      checksum 0x4E20#16]
    let s := stateAt .idle .endOp true (answers (some rd))
    s.rst = false ∧ s.eval = none ∧ s.phase = .idle ∧ s.bound = true ∧ s.env.writes = true :: [] ∧
    s.env.sleeps = 0 + 1 ∧ s.env.reads = some rd :: [] := by decide +kernel

theorem witness_GetSerialReturnsThreeWords :
    let rd := [hiByte 0#16, loByte 0#16, checksum 0#16, hiByte 0#16, loByte 0#16, checksum 0#16, hiByte 0#16, loByte 0#16,
      checksum 0#16]
    let s := stateAt .idle .endOp true (answers (some rd))
    s.rst = false ∧ s.eval = none ∧ s.phase = .idle ∧ s.bound = true ∧ s.env.writes = true :: [] ∧
    s.env.sleeps = 0 + 1 ∧ s.env.reads = some rd :: [] := by decide +kernel

theorem witness_HeaterOffWritesAndWaits_fails :
    let s := stateAt .idle .endOp true { answers none with writes := [false] }
    s.rst = false ∧ s.eval = none ∧ s.phase = .idle ∧ s.bound = true ∧ s.env.writes = false :: [] := by decide

/-- An identity that differs from a rejected one in one word. -/
theorem witness_BeginBindsAndLeavesTheSerial :
    let rd := [hiByte 0#16, loByte 0#16, checksum 0#16, hiByte 0#16, loByte 0#16, checksum 0#16, hiByte 0xFFFF#16,
      loByte 0xFFFF#16, checksum 0xFFFF#16]
    let s := stateAt .idle .endOp false (answers (some rd))
    s.rst = false ∧ s.eval = none ∧ s.phase = .idle ∧ s.bound = false ∧ s.env.opens = some ⟨1⟩ :: [] ∧
    s.env.writes = true :: [] ∧ s.env.sleeps = 0 + 1 ∧ s.env.reads = some rd :: [] ∧
    identBad [0#16, 0#16, 0xFFFF#16] = false := by decide +kernel

theorem witness_BeginWhileBoundReleasesFirst :
    let s := asked bound ⟨0, 0x5A#8, 0, 0⟩
    s.rst = false ∧ s.eval = none ∧ s.phase = .idle ∧ s.bound = true ∧ s.req = some ⟨0, 0x5A#8, 0, 0⟩ ∧
    s.env.releases = 1 + 1 := by decide

theorem witness_EndReleasesTheBinding :
    (unbound.rst = false ∧ unbound.eval = none ∧ unbound.phase = .idle ∧ unbound.bound = false) ∧
    (bound.rst = false ∧ bound.eval = none ∧ bound.phase = .idle ∧ bound.bound = true ∧
      bound.env.releases = 1 + 1) := by decide

/-- The four outcomes: the write fails, the read has another length, a checksum is wrong, all is well. -/
theorem witness_ReadingOperationByOutcome :
    (let s := asked (stateAt .idle .endOp true { answers none with writes := [false] }) ⟨4, 0, 1, 2⟩;
      s.rst = false ∧ s.eval = none ∧ s.phase = .idle ∧ s.bound = true ∧ s.req = some ⟨4, 0, 1, 2⟩ ∧
      Op.ofSel 4 = .measureRaw ∧ s.env.writes = false :: [] ∧ s.env.sleeps = 0 + 1 ∧ s.env.reads = none :: []) ∧
    (Op.measureRaw, 50, 2) ∈ [(Op.getSerial, 1, 3), (.condition, 50, 1), (.measureRaw, 50, 2), (.selfTest, 320, 1)] ∧
    (List.replicate 5 0x2B#8).length ≠ 3 * 2 ∧
    ((List.replicate 6 0x00#8).length = 3 * 2 ∧ parseBytes (List.replicate 6 0x00#8) 2 = .badCrc) ∧
    ((List.replicate 6 0x2B#8).length = 3 * 2 ∧ parseBytes (List.replicate 6 0x2B#8) 2 = .ok [0x2B2B#16, 0x2B2B#16]) :=
  by decide +kernel

/-- The six outcomes of BEGIN on an unbound block. -/
theorem witness_BeginByOutcome :
    (let s := asked unbound ⟨0, 0x59#8, 0, 0⟩;
      s.rst = false ∧ s.eval = none ∧ s.phase = .idle ∧ s.bound = false ∧ s.req = some ⟨0, 0x59#8, 0, 0⟩ ∧
      s.env.opens = some ⟨1⟩ :: [] ∧ s.env.writes = true :: [] ∧ s.env.sleeps = 0 + 1 ∧ s.env.reads = none :: [] ∧
      s.env.releases = 1 + 1) ∧
    ({ answers none with opens := [none] } : Env).opens = none :: [] ∧
    ({ answers none with writes := [false] } : Env).writes = false :: [] ∧
    (List.replicate 8 0x2B#8).length ≠ 9 ∧
    ((List.replicate 9 0x00#8).length = 9 ∧ parseBytes (List.replicate 9 0x00#8) 3 = .badCrc) ∧
    (let rd := [0xFF#8, 0xFF#8, 0xAC#8, 0xFF#8, 0xFF#8, 0xAC#8, 0xFF#8, 0xFF#8, 0xAC#8];
      rd.length = 9 ∧ parseBytes rd 3 = .ok [0xFFFF#16, 0xFFFF#16, 0xFFFF#16] ∧
      identBad [0xFFFF#16, 0xFFFF#16, 0xFFFF#16] = true) ∧
    (serialBytes.length = 9 ∧ parseBytes serialBytes 3 = .ok [0x0123#16, 0x4567#16, 0x89AB#16] ∧
      identBad [0x0123#16, 0x4567#16, 0x89AB#16] = false) := by decide +kernel

/-- A number, the two infinities and a NaN. -/
theorem witness_HumidityClampsAndRoundsHalfUp :
    real32 0x42C80000#32 = .finite ⟨13107200, 131072⟩ ∧ real32 0x7F800000#32 = .posInf ∧
    real32 0xFF800000#32 = .negInf ∧ real32 0x7FC00000#32 = .nan := by decide

theorem witness_TemperatureClampsAndRoundsHalfUp :
    real32 0xC2340000#32 = .finite ⟨-11796480, 262144⟩ ∧ real32 0x7F800000#32 = .posInf ∧
    real32 0xFF800000#32 = .negInf ∧ real32 0xFFC00000#32 = .nan := by decide

/-- A bound block between operations, its last one HEATER_OFF, asked for a BEGIN: the longest path starts here. -/
def ready : State :=
  { asked bound ⟨0, 0x5A#8, 0, 0⟩ with
    trace := [.opened 0x59#8 (some ⟨7⟩), .wrote ⟨7⟩ [0x36#8, 0x15#8] true, .slept 1] }

/-- A block about to write the frame of SELF_TEST. -/
def writing : State :=
  { (stateAt .write .selfTest true (answers none)).loadTx [0x28#8, 0x0E#8] with
    trace := [.opened 0x59#8 (some ⟨7⟩)] }

/-- A trace without a read has every read delayed. -/
theorem readsDelayed_of_no_read {tr : List Event} (h : ∀ hd n a, Event.didRead hd n a ∉ tr) : ReadsDelayed tr := by
  intro pre hd n a post e
  exact absurd (by rw [e]; simp) (h hd n a)

theorem test_ready_inv : Inv ready :=
  ⟨rfl, rfl, readsDelayed_of_no_read (by simp [ready]), rfl, rfl, by decide, by decide,
    ⟨rfl, fun _ => rfl, fun h => absurd rfl h, fun _ => rfl, fun _ => rfl, fun _ => rfl, nofun, nofun,
      fun _ => ⟨fun _ => nofun, fun _ => rfl⟩, nofun, fun _ h => absurd rfl h⟩⟩

theorem test_writing_inv : Inv writing :=
  ⟨rfl, rfl, readsDelayed_of_no_read (by simp [writing]), rfl, rfl, by decide, by decide,
    ⟨⟨rfl, rfl, rfl, rfl, rfl⟩, rfl, by decide, by decide⟩⟩

theorem witness_StepKeepsTheInvariant :
    Inv ready ∧ Inv writing ∧ (after (step ready)).isSome = true ∧ (after (step writing)).isSome = true :=
  ⟨test_ready_inv, test_writing_inv, by decide, by decide⟩

theorem witness_InvariantStateAlwaysSteps :
    Inv writing ∧ PortOk writing ∧
    PortOk { writing with eval := some ⟨.parser 1, [0x00#8, 0x00#8, 0x81#8]⟩ } := by
  refine ⟨test_writing_inv, nofun, ?_⟩
  intro p hp
  cases hp
  exact ⟨_, rfl, by decide⟩

theorem witness_BoundCountsOpensMinusReleases : Inv ready ∧ openCount ready.trace = 1 := ⟨test_ready_inv, by decide⟩

theorem witness_EveryStepIsARowOfTheTransitionTable :
    Inv writing ∧ writing.eval = none ∧ (after (step writing)).map (·.phase) = some .delay :=
  ⟨test_writing_inv, rfl, by decide⟩

theorem witness_OperationEndsWithinEightSteps :
    Inv ready ∧ ready.phase = .idle ∧ ready.eval = none ∧ ready.req = some ⟨0, 0x5A#8, 0, 0⟩ ∧ Answered ready.env :=
  ⟨test_ready_inv, rfl, rfl, rfl, by decide, by decide, by decide, by decide, by decide, by decide⟩

theorem witness_EachStepMakesAtMostItsPhasesCall : (after (step writing)).isSome = true := by decide

/-- What a step from `s` changes, read off by `f`. -/
def changed (s : State) (f : State → State → Bool) : Bool :=
  (!s.rst) && ((after (step s)).map (f s)).getD false

/-- One step for each clause in which the clause's register changes: OP and ADDR, W0, BOUND set and cleared, HND, TXBUF,
RXBUF, STATUS at accept and in each failing phase, PHASE with and without a call. -/
theorem witness_EachRegisterHasItsWriters :
    changed ready (fun s t => t.op != s.op && t.addr != s.addr && t.phase != s.phase) ∧
    changed (received .selfTest [0x2B#8, 0x2B#8, 0x2B#8, 0#8, 0#8, 0#8, 0#8, 0#8, 0#8])
      (fun s t => t.w0 != s.w0 && t.nwords != s.nwords && t.phase != s.phase) ∧
    changed (stateAt .opening .beginOp false (answers none))
      (fun s t => t.bound != s.bound && t.hnd != s.hnd && t.txbuf != s.txbuf && t.trace != s.trace) ∧
    changed (stateAt .relFail .beginOp true (answers none)) (fun s t => t.bound != s.bound) ∧
    changed (stateAt .read .getSerial true (answers (some serialBytes))) (fun s t => t.rxbuf != s.rxbuf) ∧
    changed (asked unbound ⟨5, 0, 0, 0⟩) (fun s t => t.status != s.status) ∧
    changed (stateAt .opening .beginOp false { answers none with opens := [none] })
      (fun s t => t.status != s.status) ∧
    changed (stateAt .write .heaterOff true { answers none with writes := [false] })
      (fun s t => t.status != s.status) ∧
    changed (stateAt .read .condition true (answers none)) (fun s t => t.status != s.status) ∧
    changed (received .beginOp (List.replicate 9 0x00#8)) (fun s t => t.status != s.status) := by decide +kernel

/-- Both buffers filled to the last byte. -/
theorem witness_BufferLoadsKeepTheBytesBeyond :
    (List.replicate 8 0x2B#8).length ≤ 8 ∧ State.reset.txbuf.length = 8 ∧ serialBytes.length ≤ 9 ∧
    State.reset.rxbuf.length = 9 := by decide

end Sys2Proof.Tests
end

section
/-! PROOF. The state and what writes it (10_state.md): the result port, reset, the buffers, the writers of each register,
and a reading operation that goes well, with SELF_TEST and its flags at the result port. -/

namespace Sys2Proof.Machine

/-! ### The result port (R19, R24, R44) -/

/-- While idle the result port shows STATUS, OP, the words, BOUND and the three self-test flags. -/
theorem resultPort_of_idle {s : State} (hp : s.phase = .idle) :
    s.resultPort = some ⟨s.status.code, s.op.sel, s.nwords, s.w0, s.w1, s.w2, s.bound,
      decide (s.w0 = 0xD400#16), s.w0.getLsbD 0, s.w0.getLsbD 1⟩ := by
  have hb : s.busy = false := by simp [State.busy, hp]
  simp [State.resultPort, hb, State.stPass, State.stVocFail, State.stNoxFail, selfTestPass, Bool.beq_eq_decide_eq]

/-- While busy the result port shows nothing (log entry 21). -/
theorem resultPort_of_busy {s : State} (hp : s.phase ≠ .idle) : s.resultPort = none := by
  have hb : s.busy = true := by simpa [State.busy] using hp
  simp [State.resultPort, hb]

/-- Settles O21, by the two cases of the result port. -/
theorem resultPortShowsTheResultWhileIdle : Obligations.ResultPortShowsTheResultWhileIdle :=
  ⟨fun _ hp => resultPort_of_idle hp, fun _ hp => resultPort_of_busy hp⟩

/-! ### Reset (R27) -/

/-- END on an idle block which holds no binding ends in its accept step, in IDLE. -/
theorem exec_endOp_unbound {s : State} (a : Addr) (p0 p1 : Word) (hp : s.phase = .idle) (hb : s.bound = false) :
    exec (.endOp a p0 p1) s = .next ((s.latch .endOp p0 p1).setPhase .idle) := by
  simp [exec, execEnd, operation, acceptEnd, hp, hb]

/-- Settles O1: after END on an unbound block every field of the result port has its reset value. -/
theorem resetHoldsTheSpecValues : Obligations.ResetHoldsTheSpecValues := by
  refine ⟨by decide, fun s a p0 p1 hp hb => ⟨_, exec_endOp_unbound a p0 p1 hp hb, ?_⟩⟩
  rw [resultPort_of_idle (State.setPhase_phase ..), resultPort_of_idle (s := State.reset) rfl]
  simp [hb, State.reset]

/-- The reset state is one between operations: its last operation counts as an END that went well. -/
theorem idleInv_reset : IdleInv State.reset where
  allowed := rfl
  countOk := fun _ => rfl
  countFail := fun h => absurd rfl h
  blank0 := fun _ => rfl
  blank1 := fun _ => rfl
  blank2 := fun _ => rfl
  boundBegin := nofun
  boundEnd := fun _ => rfl
  boundChip := nofun
  ident := nofun
  lastRead := fun _ h => absurd rfl h

/-- In the empty trace every read has its delay. -/
theorem readsDelayed_nil : ReadsDelayed [] := by
  intro pre h n a post e
  simp at e

/-- Settles O52: between operations, with no call made and both buffers at their sizes. -/
theorem resetMeetsTheInvariant : Obligations.ResetMeetsTheInvariant where
  noReset := rfl
  binding := rfl
  reads := readsDelayed_nil
  txSize := rfl
  rxSize := rfl
  txLen := Nat.zero_le _
  rxLen := Nat.zero_le _
  phase := idleInv_reset

/-! ### The buffers (R20, R21) -/

/-- A length that fits a buffer fits its four-bit length register. -/
theorem toNat_ofNat_four {n : Nat} (h : n ≤ 9) : (BitVec.ofNat 4 n).toNat = n := by
  rw [BitVec.toNat_ofNat, Nat.mod_eq_of_lt (by omega)]

/-- Settles O60, by the laws of `overwrite`. -/
theorem bufferLoadsKeepTheBytesBeyond : Obligations.BufferLoadsKeepTheBytesBeyond := by
  refine fun s f => ⟨fun hf hs => ⟨txFrame_loadTx s hf, ?_, ?_, fun i hi => overwrite_beyond hi⟩,
    fun hf hs => ⟨rxFrame_loadRx s hf, ?_, ?_, fun i hi => overwrite_beyond hi⟩⟩
  · exact toNat_ofNat_four (by omega)
  · rw [State.loadTx_txbuf, length_overwrite (by omega), hs]
  · exact toNat_ofNat_four hf
  · rw [State.loadRx_rxbuf, length_overwrite (by omega), hs]

/-! ### The writers of each register (R28) -/

/-- A change of state in which each register is written by one of its writers (R28), clause by clause. -/
structure WritersKept (s t : State) : Prop where
  operands : t.p0 ≠ s.p0 ∨ t.p1 ≠ s.p1 ∨ t.op ≠ s.op → s.phase = .idle ∧ s.req ≠ none
  addr : t.addr ≠ s.addr → s.phase = .idle ∧ ∃ r, s.req = some r ∧ r.opsel = 0 ∧ t.addr = r.addr
  words : t.w0 ≠ s.w0 ∨ t.w1 ≠ s.w1 ∨ t.w2 ≠ s.w2 ∨ t.nwords ≠ s.nwords → s.phase = .idle ∨ s.phase = .check
  binds : t.bound = true → s.bound = false → s.phase = .opening
  unbinds : t.bound = false → s.bound = true → s.phase = .relOld ∨ s.phase = .relFail
  hnd : t.hnd ≠ s.hnd → s.phase = .opening
  tx : t.txbuf ≠ s.txbuf ∨ t.txlen ≠ s.txlen → s.phase = .idle ∨ s.phase = .opening
  rx : t.rxbuf ≠ s.rxbuf ∨ t.rxlen ≠ s.rxlen → s.phase = .read
  status : t.status ≠ s.status →
    s.phase = .idle ∧ s.req ≠ none ∧ (t.status = .ok ∨ t.status = .eNotReady) ∨
    s.phase = .opening ∧ t.status = .eOpen ∨ s.phase = .write ∧ t.status = .eWrite ∨
    s.phase = .read ∧ t.status = .eRead ∨ s.phase = .check ∧ (t.status = .eCrc ∨ t.status = .eIdent)
  phase : t.phase ≠ s.phase → s.eval = none ∧ (s.phase = .idle → s.req ≠ none)
  call : t.trace ≠ s.trace → t.phase ≠ s.phase
  check : s.eval = none → s.phase = .check → t.phase ≠ s.phase

/-- A step that changes nothing breaks no clause, unless it should have checked a response. -/
theorem WritersKept.refl {s : State} (h : s.phase ≠ .check) : WritersKept s s := by
  constructor <;> intros <;> simp_all

/-- The evaluation port writes no register. -/
theorem writersKept_answer {s : State} {p : Presented} (v : PortOut) (he : s.eval = some p) :
    WritersKept s (s.answer v) := by
  constructor <;> intros <;> simp_all

/-- Which phase fails with which code (R105, R106, R108, R109). -/
def FailsWith (p : Phase) (c : Status) : Prop :=
  p = .opening ∧ c = .eOpen ∨ p = .write ∧ c = .eWrite ∨ p = .read ∧ c = .eRead ∨
    p = .check ∧ (c = .eCrc ∨ c = .eIdent)

/-- Taking a failure leaves the phase that failed. -/
theorem raiseFail_phase_ne {s : State} {c : Status} (hc : FailsWith s.phase c) : (s.raiseFail c).phase ≠ s.phase := by
  have hidle : s.phase ≠ .idle := by rintro h; simp [FailsWith, h] at hc
  have hrel : s.phase ≠ .relFail := by rintro h; simp [FailsWith, h] at hc
  obtain ⟨_, _, h⟩ | ⟨_, h⟩ := raiseFail_phase_cases s c
  · rw [h]; exact hrel.symm
  · rw [h]; exact hidle.symm

/-- A step that fails, with or without a call, writes STATUS with its code and PHASE. -/
theorem writersKept_raiseFail {s : State} {c : Status} (env : Env) (tr : List Event) (he : s.eval = none)
    (hc : FailsWith s.phase c) : WritersKept s (({ s with env := env, trace := tr } : State).raiseFail c) where
  operands := by simp
  addr := by simp
  words := by simp
  binds := by simp_all
  unbinds := by simp_all
  hnd := by simp
  tx := by simp
  rx := by simp
  status := fun _ => .inr hc
  phase := fun _ => ⟨he, fun hi => by simp [FailsWith, hi] at hc⟩
  call := fun _ => raiseFail_phase_ne (s := { s with env := env, trace := tr }) hc
  check := fun _ _ => raiseFail_phase_ne (s := { s with env := env, trace := tr }) hc

/-- Accept of BEGIN is the one writer of ADDR. -/
theorem writersKept_acceptBegin {s : State} {r : Request} (he : s.eval = none) (hp : s.phase = .idle)
    (hq : s.req = some r) (ho : r.opsel = 0) : WritersKept s (acceptBegin r.addr r.p0 r.p1 s) := by
  constructor <;> simp [acceptBegin, he, hp, hq, ho]

/-- Accept of END writes what every accept latches. -/
theorem writersKept_acceptEnd {s : State} {r : Request} (he : s.eval = none) (hp : s.phase = .idle)
    (hq : s.req = some r) : WritersKept s (acceptEnd r.p0 r.p1 s) := by
  constructor <;> simp [acceptEnd, he, hp, hq]

/-- Accept of a chip operation builds the frame in TXBUF, or writes E_NOT_READY. -/
theorem writersKept_acceptChip {s : State} {r : Request} (o : Op) (he : s.eval = none) (hp : s.phase = .idle)
    (hq : s.req = some r) : WritersKept s (acceptChip o r.p0 r.p1 s) := by
  unfold acceptChip
  split
  · constructor <;> simp [he, hp, hq]
  · constructor <;> simp [he, hp, hq]

/-- Accept writes OP, the operands, the result and the phase; ADDR for BEGIN alone, TXBUF for a chip operation. -/
theorem writersKept_accepted {s : State} {r : Request} (he : s.eval = none) (hp : s.phase = .idle)
    (hq : s.req = some r) : WritersKept s (accepted (Op.ofSel r.opsel) r.addr r.p0 r.p1 s) := by
  cases ho : Op.ofSel r.opsel with
  | beginOp =>
    have hsel : r.opsel = 0 := by rw [← Op.sel_ofSel r.opsel, ho]; rfl
    exact writersKept_acceptBegin he hp hq hsel
  | endOp => exact writersKept_acceptEnd he hp hq
  | getSerial | condition | measureRaw | selfTest | heaterOff | softReset =>
    exact writersKept_acceptChip _ he hp hq

/-- REL_OLD ends the binding and makes its call. -/
theorem writersKept_relOldStep {s t : State} (he : s.eval = none) (hp : s.phase = .relOld)
    (h : relOldStep s = .next t) : WritersKept s t := by
  obtain ⟨_, rfl⟩ | ⟨k, _, rfl⟩ := relOldStep_cases h
  · exact .refl (by simp [hp])
  · constructor <;> simp [he, hp]
    split <;> simp

/-- OPEN binds and builds the frame, or fails. -/
theorem writersKept_openStep {s t : State} (he : s.eval = none) (hp : s.phase = .opening)
    (h : openStep s = .next t) : WritersKept s t := by
  obtain ⟨_, rfl⟩ | ⟨hd, rest, _, rfl⟩ | ⟨rest, _, rfl⟩ := openStep_cases h
  · exact .refl (by simp [hp])
  · constructor <;> simp [he, hp]
  · exact writersKept_raiseFail _ _ he (by simp [FailsWith, hp])

/-- WRITE makes its call, by either write, or fails. -/
theorem writersKept_writeStep {s t : State} (he : s.eval = none) (hp : s.phase = .write)
    (h : writeStep s = .next t) : WritersKept s t := by
  unfold writeStep at h
  split at h
  · obtain ⟨_, rfl⟩ | ⟨a, rest, _, rfl⟩ := writeGeneralStep_cases h
    · exact .refl (by simp [hp])
    · constructor <;> simp [he, hp]
  · obtain ⟨_, rfl⟩ | ⟨rest, _, rfl⟩ | ⟨rest, _, rfl⟩ := writeDeviceStep_cases h
    · exact .refl (by simp [hp])
    · constructor <;> simp [he, hp]
    · exact writersKept_raiseFail _ _ he (by simp [FailsWith, hp])

/-- DELAY makes its call and goes on to IDLE or READ. -/
theorem writersKept_delayStep {s t : State} (he : s.eval = none) (hp : s.phase = .delay)
    (h : delayStep s = .next t) : WritersKept s t := by
  obtain ⟨ms, _, ⟨_, rfl⟩ | ⟨k, _, rfl⟩⟩ := delayStep_cases h
  · exact .refl (by simp [hp])
  · constructor <;> simp [he, hp]
    split <;> simp

/-- READ fills RXBUF or fails. -/
theorem writersKept_readStep {s t : State} (he : s.eval = none) (hp : s.phase = .read)
    (h : readStep s = .next t) : WritersKept s t := by
  obtain ⟨_, ⟨_, rfl⟩ | ⟨bs, rest, _, _, rfl⟩ | ⟨ans, rest, _, _, rfl⟩⟩ := readStep_cases h
  · exact .refl (by simp [hp])
  · constructor <;> simp [he, hp]
  · exact writersKept_raiseFail _ _ he (by simp [FailsWith, hp])

/-- CHECK never waits: it loads the words or fails. -/
theorem writersKept_checkStep {s t : State} (he : s.eval = none) (hp : s.phase = .check)
    (h : checkStep s = .next t) : WritersKept s t := by
  obtain ⟨_, rfl⟩ | ⟨ws, _, _, _, rfl⟩ | ⟨ws, _, _, rfl⟩ := checkStep_cases h
  · exact writersKept_raiseFail s.env s.trace he (by simp [FailsWith, hp])
  · exact writersKept_raiseFail s.env s.trace he (by simp [FailsWith, hp])
  · constructor <;> simp [he, hp]

/-- REL_FAIL ends the binding and makes its call. -/
theorem writersKept_relFailStep {s t : State} (he : s.eval = none) (hp : s.phase = .relFail)
    (h : relFailStep s = .next t) : WritersKept s t := by
  obtain ⟨_, rfl⟩ | ⟨k, _, rfl⟩ := relFailStep_cases h
  · exact .refl (by simp [hp])
  · constructor <;> simp [he, hp]

/-- The step of the running operation writes what its phase may write. -/
theorem writersKept_runningStep {s t : State} (he : s.eval = none) (hi : s.phase ≠ .idle)
    (h : runningStep s = .next t) : WritersKept s t := by
  cases hp : s.phase with
  | idle => exact absurd hp hi
  | relOld => simp only [runningStep, hp] at h; exact writersKept_relOldStep he hp h
  | opening => simp only [runningStep, hp] at h; exact writersKept_openStep he hp h
  | write => simp only [runningStep, hp] at h; exact writersKept_writeStep he hp h
  | delay => simp only [runningStep, hp] at h; exact writersKept_delayStep he hp h
  | read => simp only [runningStep, hp] at h; exact writersKept_readStep he hp h
  | check => simp only [runningStep, hp] at h; exact writersKept_checkStep he hp h
  | relFail => simp only [runningStep, hp] at h; exact writersKept_relFailStep he hp h

/-- Every step but the hardware reset keeps to the writers of each register. -/
theorem writersKept_step {s t : State} (hr : s.rst = false) (h : step s = .next t) : WritersKept s t := by
  obtain ⟨hrst, _⟩ | ⟨_, p, he, v, rfl⟩ | ⟨_, _, hp, _, rfl⟩ | ⟨_, he, hp, r, hq, rfl⟩ | ⟨_, he, hp, hs⟩ :=
    step_cases h
  · simp [hr] at hrst
  · exact writersKept_answer v he
  · exact .refl (by simp [hp])
  · exact writersKept_accepted he hp hq
  · exact writersKept_runningStep he hp hs

/-- Settles O59, by cases on what the step does. -/
theorem eachRegisterHasItsWriters : Obligations.EachRegisterHasItsWriters := by
  intro s t hr h
  obtain ⟨h1, h2, h3, h4, h5, h6, h7, h8, h9, h10, h11, h12⟩ := writersKept_step hr h
  exact ⟨h1, h2, h3, h4, h5, h6, h7, h8, h9, h10, h11, h12⟩

/-! ### An operation that reads a response (R106 to R109, R113) -/

/-- In WRITE a device write which is answered `ok` goes on to DELAY (R106). -/
theorem run_write_sent {s : State} {ws : List Bool} (k : Nat) (hr : s.rst = false) (he : s.eval = none)
    (hp : s.phase = .write) (ho : s.op ≠ .softReset) (hw : s.env.writes = true :: ws) :
    Sys2Proof.core.run (k + 1) s = Sys2Proof.core.run k
      (((s.setEnv { s.env with writes := ws }).log (.wrote s.hnd s.txFrame true)).setPhase .delay) := by
  apply run_succ
  rw [step_busy hr he (by simp [hp])]
  simp [runningStep, hp, writeStep, ho, writeDeviceStep, hw]

/-- In DELAY a sleep which returns ends the operation, or goes on to READ if a response is due (R107). -/
theorem run_delay_slept {s : State} {ms m : Nat} (k : Nat) (hr : s.rst = false) (he : s.eval = none)
    (hp : s.phase = .delay) (hd : delayMs s.op = some ms) (hz : s.env.sleeps = m + 1) :
    Sys2Proof.core.run (k + 1) s = Sys2Proof.core.run k
      (((s.setEnv { s.env with sleeps := m }).log (.slept ms)).setPhase
        (if respWords s.op = 0 then .idle else .read)) := by
  apply run_succ
  rw [step_busy hr he (by simp [hp])]
  simp [runningStep, hp, delayStep, hd, hz]

/-- In READ an answer of the right length is stored in RXBUF (R108). -/
theorem run_read_received {s : State} {bs : List Byte} {rs : List (Option (List Byte))} (k : Nat) (hr : s.rst = false)
    (he : s.eval = none) (hp : s.phase = .read) (hn : respWords s.op ≠ 0) (hl : bs.length = 3 * respWords s.op)
    (ha : s.env.reads = some bs :: rs) :
    Sys2Proof.core.run (k + 1) s = Sys2Proof.core.run k
      ((((s.setEnv { s.env with reads := rs }).log (.didRead s.hnd (3 * respWords s.op) (some bs))).loadRx bs).setPhase
        .check) := by
  apply run_succ
  rw [step_busy hr he (by simp [hp])]
  simp [runningStep, hp, readStep, hn, ha, hl]

/-- In CHECK a response the parser accepts leaves its words, unless a BEGIN rejects the identity (R109). -/
theorem run_check_loaded {s : State} {vs : List Word} (k : Nat) (hr : s.rst = false) (he : s.eval = none)
    (hp : s.phase = .check) (hv : parseBytes s.rxFrame (respWords s.op) = .ok vs)
    (hi : ¬(s.op = .beginOp ∧ identBad vs = true)) :
    Sys2Proof.core.run (k + 1) s = Sys2Proof.core.run k ((s.loadWords vs (respWords s.op)).setPhase .idle) := by
  apply run_succ
  rw [step_busy hr he (by simp [hp])]
  simp only [runningStep, hp, checkStep, hv, if_neg hi]

/-- What a chip operation that reads a response leaves when all goes well, with the frame it sent, the time it slept,
the bytes it received and the words they carry (R113). -/
def readDone (o : Op) (p0 p1 : Word) (d : Nat) (bs : List Byte) (vs : List Word) (ws : List Bool) (k : Nat)
    (rs : List (Option (List Byte))) (s : State) : State :=
  { s with
    op := o, p0 := p0, p1 := p1, status := .ok, nwords := BitVec.ofNat 2 (respWords o),
    w0 := vs.getD 0 0, w1 := vs.getD 1 0, w2 := vs.getD 2 0, phase := .idle, req := none,
    txbuf := overwrite (opFrame o p0 p1) s.txbuf, txlen := BitVec.ofNat 4 (opFrame o p0 p1).length,
    rxbuf := overwrite bs s.rxbuf, rxlen := BitVec.ofNat 4 bs.length,
    env := { s.env with writes := ws, sleeps := k, reads := rs },
    trace := s.trace ++
      [.wrote s.hnd (opFrame o p0 p1) true, .slept d, .didRead s.hnd (3 * respWords o) (some bs)] }

/-- From its accept on a bound block, a chip operation that reads a response takes four steps: write, delay, read and
check. -/
theorem run_acceptChip_readDone {s : State} {o : Op} {d k : Nat} {bs : List Byte} {vs : List Word} {ws : List Bool}
    {rs : List (Option (List Byte))} (p0 p1 : Word) (hr : s.rst = false) (he : s.eval = none) (hb : s.bound = true)
    (ho : o ≠ .beginOp) (hn : respWords o ≠ 0) (hd : delayMs o = some d)
    (hw : s.env.writes = true :: ws) (hz : s.env.sleeps = k + 1) (ha : s.env.reads = some bs :: rs)
    (hl : bs.length = 3 * respWords o) (hv : parseBytes bs (respWords o) = .ok vs) :
    Sys2Proof.core.run 4 (acceptChip o p0 p1 s) = .next (readDone o p0 p1 d bs vs ws k rs s) := by
  have hs : o ≠ .softReset := by rintro rfl; exact hn rfl
  have hl9 : bs.length ≤ 9 := by rw [hl]; cases o <;> simp [respWords]
  have hacc : acceptChip o p0 p1 s = ((s.latch o p0 p1).loadTx (opFrame o p0 p1)).setPhase .write := by
    simp [acceptChip, hb]
  have htx : (((s.latch o p0 p1).loadTx (opFrame o p0 p1)).setPhase .write).txFrame = opFrame o p0 p1 :=
    txFrame_loadTx _ (length_opFrame ..)
  have hrx (u : State) : ((u.loadRx bs).setPhase .check).rxFrame = bs := rxFrame_loadRx u hl9
  rw [hacc, run_write_sent (ws := ws) 3, run_delay_slept (ms := d) (m := k) 2, run_read_received (bs := bs) (rs := rs) 1,
    run_check_loaded (vs := vs) 0, htx]
  · simp [Host.Core.run, readDone, State.setPhase, State.loadWords, State.loadRx, State.log, State.setEnv, State.loadTx,
      State.latch]
  all_goals simp [*]

/-- The parser reads one triplet as its word. -/
theorem parseBytes_one (v : Word) : parseBytes [hiByte v, loByte v, checksum v] 1 = .ok [v] :=
  parseBytes_triplets [v] [] (by simp)

/-- SELF_TEST sends the two bytes of its command word (R56, R120). -/
theorem opFrame_selfTest (p0 p1 : Word) : opFrame .selfTest p0 p1 = [0x28#8, 0x0E#8] := rfl

/-- In IDLE, SELF_TEST is accepted. -/
theorem exec_selfTest_idle {s : State} (a : Addr) (p0 p1 : Word) (hp : s.phase = .idle) :
    exec (.selfTest a p0 p1) s = .next (acceptChip .selfTest p0 p1 s) := by
  simp [exec, execSelfTest, operation, hp]

/-- Settles O45: SELF_TEST as the reading operation of one word, seen at the result port. -/
theorem selfTestReturnsItsWord : Obligations.SelfTestReturnsItsWord := by
  intro s a p0 p1 v ws rs k hr he hp hb hw hz ha
  have hrun := run_acceptChip_readDone (o := .selfTest) p0 p1 hr he hb nofun nofun rfl hw hz ha rfl (parseBytes_one v)
  refine ⟨_, _, exec_selfTest_idle a p0 p1 hp, hrun, rfl, ?_⟩
  rw [resultPort_of_idle (by rfl)]
  simp [readDone, hb, respWords, Status.code, Op.sel]

end Sys2Proof.Machine
end

section
/-! PROOF. The ports, the transport calls and the sequencer's steps that make them (20_memory.md): what `exec` is for a
running operation and for a frame, which step waits, the one call of a step, and whole operations call by call. -/

namespace Sys2Proof.Machine

/-! ### What `exec` runs (R43, R44, R106) -/

/-- A request for the running operation means the step of PHASE. -/
theorem exec_own_request {r : Request} {s : State} (hp : s.phase ≠ .idle) (ho : Op.ofSel r.opsel = s.op) :
    exec (decodeRequest r) s = runningStep s := by
  rw [exec_decodeRequest, operation, if_neg hp, if_pos ho.symm]

/-- Settles O36: `operation` of another operation than the running one. -/
theorem otherRequestWhileBusyHasNoEffect : Obligations.OtherRequestWhileBusyHasNoEffect := by
  intro r s hp ho
  rw [exec_decodeRequest, operation, if_neg hp, if_neg (Ne.symm ho)]

/-- An instruction of the wire is the sending of its frame. -/
theorem exec_of_portOf_wire {i : Instr} (hi : portOf i = .wire) (s : State) : exec i s = sendFrame (encode i) s := by
  cases i with
  | getSerialWire | selfTestWire | heaterOffWire | softResetWire | conditionWire | measureRawWire => rfl
  | _ => cases hi

/-- Settles O38, by the two cases of sending a frame. -/
theorem frameNotInTxbufIsNotSent : Obligations.FrameNotInTxbufIsNotSent := by
  intro i s hi hns
  rw [exec_of_portOf_wire hi, sendFrame, if_neg hns]

/-- The two bytes of a word at the checksum port are CRC8 of that word. -/
theorem decode_crcPort (w : Word) : decode (.eval .crc) [hiByte w, loByte w] = .ok (.crc8 w) := by
  simp [decode, decodeEval]

/-- Settles O20: the step answers what stands at the evaluation port, whatever PHASE holds. -/
theorem checksumPortAnswersInEveryPhase : Obligations.ChecksumPortAnswersInEveryPhase := by
  intro s w hr he
  rw [step_eval hr he (decode_crcPort w)]
  rfl

/-! ### What a step runs (R43, R44, R100, R106) -/

/-- In WRITE the step sends the frame in TXBUF, where that decodes. -/
theorem step_write_frame {s : State} {i : Instr} (hr : s.rst = false) (he : s.eval = none) (hp : s.phase = .write)
    (hd : decode .wire s.txFrame = .ok i) : step s = exec i s := by
  simp [step, fetch, hr, he, hp, hd]

/-- In IDLE the step runs the presented request. -/
theorem step_request {s : State} {r : Request} (hr : s.rst = false) (he : s.eval = none) (hp : s.phase = .idle)
    (hq : s.req = some r) : step s = exec (decodeRequest r) s := by
  simp [step, fetch, hr, he, hp, hq]

/-- Settles O3, clause by clause. -/
theorem stepRunsTheDecodedInstruction : Obligations.StepRunsTheDecodedInstruction := by
  intro s hr
  refine ⟨fun p i he hd => step_eval hr he hd, fun he hp r hq => step_request hr he hp hq,
    fun he hp hq => step_wait hr he hp hq, fun he hp i hd => step_write_frame hr he hp hd, fun he hp => ?_⟩
  calc step s = runningStep s := step_busy hr he hp
    _ = exec s.running s := (exec_running hp).symm

/-- A frame that decodes has two or eight bytes. -/
theorem length_of_decodeWire {bs : List Byte} {i : Instr} (h : decodeWire bs = .ok i) :
    bs.length = 2 ∨ bs.length = 8 := by
  unfold decodeWire at h
  split at h
  · exact .inl rfl
  · exact .inr rfl
  · cases h

/-- The frame presented is the frame the WRITE step finds. -/
theorem txFrame_presentFrame (s : State) (o : Op) {f : List Byte} (h : f.length ≤ 8) :
    (s.presentFrame f o).txFrame = f := txFrame_loadTx s h

/-- A presented request is what the next step runs. -/
theorem step_presentRequest (s : State) (r : Request) :
    step (s.presentRequest r) = exec (decodeRequest r) (s.presentRequest r) := step_request rfl rfl rfl rfl

/-- A presented frame is what the next step runs. -/
theorem step_presentFrame (s : State) (o : Op) {f : List Byte} {i : Instr} (h : decodeWire f = .ok i) :
    step (s.presentFrame f o) = exec i (s.presentFrame f o) := by
  have hl : f.length ≤ 8 := by have := length_of_decodeWire h; omega
  exact step_write_frame rfl rfl rfl (by rw [txFrame_presentFrame s o hl]; exact h)

/-- Presented operands are what the next step evaluates. -/
theorem step_presentEval (s : State) {p : Presented} {i : Instr} (h : decode (.eval p.port) p.bytes = .ok i) :
    step (s.presentEval p) = exec i (s.presentEval p) := step_eval rfl rfl h

/-- A table word decodes as its bytes do at its port. -/
theorem decode_of_decodeTableWord {nbits w : Nat} {i : Instr} (h : decodeTableWord nbits w = some i) :
    decode (tablePort nbits w).1 (tablePort nbits w).2 = .ok i := by
  unfold decodeTableWord at h
  cases hd : decode (tablePort nbits w).1 (tablePort nbits w).2 with
  | error e => rw [hd] at h; cases h
  | ok j => rw [hd] at h; cases h; rfl

/-- Settles O4, by the place the table word is presented at. -/
theorem fetchWordRunsTheDecodedWord : Obligations.FetchWordRunsTheDecodedWord := by
  intro nbits w i h s
  have hd := decode_of_decodeTableWord h
  unfold State.withFetchWord State.presentWord
  cases hport : (tablePort nbits w).1 with
  | request =>
    rw [hport] at hd
    cases hr : requestOfBytes (tablePort nbits w).2 with
    | error e => simp [decode, hr, Except.map] at hd
    | ok r =>
      obtain rfl : decodeRequest r = i := by simpa [decode, hr, Except.map] using hd
      exact step_presentRequest s r
  | wire =>
    rw [hport] at hd
    have hw : decodeWire (tablePort nbits w).2 = .ok i := hd
    simp only [hw]
    exact step_presentFrame s _ hw
  | eval e =>
    rw [hport] at hd
    exact step_presentEval s hd

/-! ### The step of each phase, by the collaborator's answer (R37 to R42, R104 to R112) -/

/-- In REL_OLD the release returns. -/
theorem relOldStep_released {s : State} {m : Nat} (h : s.env.releases = m + 1) :
    relOldStep s = .next ((((s.setEnv { s.env with releases := m }).log (.released s.hnd)).unbind).setPhase
      (if s.op = .beginOp then .opening else .idle)) := by
  simp only [relOldStep, h]

/-- In OPEN the transport gives a handle. -/
theorem openStep_handle {s : State} {h : Handle} {os : List (Option Handle)} (ha : s.env.opens = some h :: os) :
    openStep s = .next (((((s.setEnv { s.env with opens := os }).log (.opened s.addr (some h))).bind h).loadTx
      (frameBytes 0x3682#16 [])).setPhase .write) := by
  simp only [openStep, ha]

/-- In OPEN the transport answers `fail`. -/
theorem openStep_fail {s : State} {os : List (Option Handle)} (ha : s.env.opens = none :: os) :
    openStep s = .next (((s.setEnv { s.env with opens := os }).log (.opened s.addr none)).raiseFail .eOpen) := by
  simp only [openStep, ha]

/-- In WRITE of SOFT_RESET the general call goes on to DELAY, whatever its answer. -/
theorem writeStep_general {s : State} {ok : Bool} {gs : List Bool} (ho : s.op = .softReset)
    (hg : s.env.generals = ok :: gs) :
    writeStep s = .next
      (((s.setEnv { s.env with generals := gs }).log (.wroteGeneral s.hnd s.txFrame ok)).setPhase .delay) := by
  simp only [writeStep, if_pos ho, writeGeneralStep, hg]

/-- In WRITE of another operation an answer `ok` goes on to DELAY. -/
theorem writeStep_ok {s : State} {ws : List Bool} (ho : s.op ≠ .softReset) (hw : s.env.writes = true :: ws) :
    writeStep s = .next
      (((s.setEnv { s.env with writes := ws }).log (.wrote s.hnd s.txFrame true)).setPhase .delay) := by
  simp only [writeStep, if_neg ho, writeDeviceStep, hw]

/-- In WRITE of another operation an answer `fail` aborts. -/
theorem writeStep_fail {s : State} {ws : List Bool} (ho : s.op ≠ .softReset) (hw : s.env.writes = false :: ws) :
    writeStep s = .next
      (((s.setEnv { s.env with writes := ws }).log (.wrote s.hnd s.txFrame false)).raiseFail .eWrite) := by
  simp only [writeStep, if_neg ho, writeDeviceStep, hw]

/-- In READ an answer of the requested length is stored. -/
theorem readStep_received {s : State} {bs : List Byte} {rs : List (Option (List Byte))} (hn : respWords s.op ≠ 0)
    (hl : bs.length = 3 * respWords s.op) (ha : s.env.reads = some bs :: rs) :
    readStep s = .next ((((s.setEnv { s.env with reads := rs }).log
      (.didRead s.hnd (3 * respWords s.op) (some bs))).loadRx bs).setPhase .check) := by
  simp only [readStep, if_neg hn, ha, if_pos hl]

/-- In READ `fail`, and an answer of another length, abort. -/
theorem readStep_fail {s : State} {ans : Option (List Byte)} {rs : List (Option (List Byte))}
    (hn : respWords s.op ≠ 0) (hl : ∀ bs, ans = some bs → bs.length ≠ 3 * respWords s.op)
    (ha : s.env.reads = ans :: rs) :
    readStep s = .next (((s.setEnv { s.env with reads := rs }).log
      (.didRead s.hnd (3 * respWords s.op) ans)).raiseFail .eRead) := by
  cases ans with
  | none => simp only [readStep, if_neg hn, ha]
  | some bs => simp only [readStep, if_neg hn, ha, if_neg (hl bs rfl)]

/-- In CHECK a wrong checksum aborts. -/
theorem checkStep_badCrc {s : State} (hv : parseBytes s.rxFrame (respWords s.op) = .badCrc) :
    checkStep s = .next (s.raiseFail .eCrc) := by
  simp only [checkStep, hv]

/-- In CHECK of BEGIN a rejected identity aborts. -/
theorem checkStep_identBad {s : State} {vs : List Word} (hv : parseBytes s.rxFrame (respWords s.op) = .ok vs)
    (ho : s.op = .beginOp) (hi : identBad vs = true) : checkStep s = .next (s.raiseFail .eIdent) := by
  simp only [checkStep, hv, if_pos (And.intro ho hi)]

/-- In REL_FAIL the release returns. -/
theorem relFailStep_released {s : State} {m : Nat} (h : s.env.releases = m + 1) :
    relFailStep s = .next
      ((((s.setEnv { s.env with releases := m }).log (.released s.hnd)).unbind).setPhase .idle) := by
  simp only [relFailStep, h]

/-- In WRITE the step of the running operation is the WRITE step. -/
theorem runningStep_of_write {s : State} (hp : s.phase = .write) : runningStep s = writeStep s := by
  simp only [runningStep, hp]

/-- In READ the step of the running operation is the READ step. -/
theorem runningStep_of_read {s : State} (hp : s.phase = .read) : runningStep s = readStep s := by
  simp only [runningStep, hp]

/-- In OPEN the step of the running operation is the OPEN step. -/
theorem runningStep_of_opening {s : State} (hp : s.phase = .opening) : runningStep s = openStep s := by
  simp only [runningStep, hp]

/-- In REL_OLD the step of the running operation is the REL_OLD step. -/
theorem runningStep_of_relOld {s : State} (hp : s.phase = .relOld) : runningStep s = relOldStep s := by
  simp only [runningStep, hp]

/-- In CHECK the step of the running operation is the CHECK step. -/
theorem runningStep_of_check {s : State} (hp : s.phase = .check) : runningStep s = checkStep s := by
  simp only [runningStep, hp]

/-- In REL_FAIL the step of the running operation is the REL_FAIL step. -/
theorem runningStep_of_relFail {s : State} (hp : s.phase = .relFail) : runningStep s = relFailStep s := by
  simp only [runningStep, hp]

/-- Settles O27, by the answer of the write. -/
theorem writeSendsTheFrame : Obligations.WriteSendsTheFrame := by
  intro r s hp ho
  have hrun : exec (decodeRequest r) s = writeStep s := by
    rw [exec_own_request (by simp [hp]) ho, runningStep_of_write hp]
  rw [hrun]
  exact ⟨fun hs ok rest hg => writeStep_general hs hg, fun hs rest hw => writeStep_ok hs hw,
    fun hs rest hw => writeStep_fail hs hw⟩

/-- Settles O37: the frame in TXBUF is sent by the WRITE step. -/
theorem wireFrameIsSentInOneCall : Obligations.WireFrameIsSentInOneCall := by
  intro i s hp hf hi
  have hwire : portOf i = .wire := by
    obtain rfl | rfl | rfl | rfl | ⟨h, x, t, y, rfl⟩ | ⟨h, x, t, y, rfl⟩ := hi <;> rfl
  have hrun : exec i s = writeStep s := by
    rw [exec_of_portOf_wire hwire, sendFrame, if_pos ⟨hp, hf⟩]
  rw [hrun, ← hf]
  exact ⟨fun hs ok rest hg => writeStep_general hs hg, fun hs rest hw => writeStep_ok hs hw⟩

/-- The response counts of the five reading operations (R54). -/
theorem respWords_of_mem {o : Op} {n : Nat}
    (h : (o, n) ∈ [(Op.beginOp, 3), (.getSerial, 3), (.condition, 1), (.measureRaw, 2), (.selfTest, 1)]) :
    respWords o = n ∧ n ≠ 0 := by
  simp only [List.mem_cons, Prod.mk.injEq, List.not_mem_nil, or_false] at h
  obtain ⟨rfl, rfl⟩ | ⟨rfl, rfl⟩ | ⟨rfl, rfl⟩ | ⟨rfl, rfl⟩ | ⟨rfl, rfl⟩ := h <;> exact ⟨rfl, by decide⟩

/-- Settles O29, by the length of the answer. -/
theorem readFetchesTheWholeResponse : Obligations.ReadFetchesTheWholeResponse := by
  intro r s n rest hp ho hm
  obtain ⟨rfl, hn⟩ := respWords_of_mem hm
  rw [exec_own_request (by simp [hp]) ho, runningStep_of_read hp]
  refine ⟨fun bs hl ha => ?_, fun ans hl ha => readStep_fail hn hl ha⟩
  rw [readStep_received hn hl ha, ← hl]
  rfl

/-! ### Waiting (R49) -/

/-- The collaborator whose answer the step of this phase takes has none queued (R49). -/
def Silent (s : State) : Prop :=
  s.phase = .relOld ∧ s.env.releases = 0 ∨ s.phase = .relFail ∧ s.env.releases = 0 ∨
    s.phase = .opening ∧ s.env.opens = [] ∨
    s.phase = .write ∧ s.op = .softReset ∧ s.env.generals = [] ∨
    s.phase = .write ∧ s.op ≠ .softReset ∧ s.env.writes = [] ∨
    s.phase = .delay ∧ s.op ≠ .endOp ∧ s.env.sleeps = 0 ∨
    s.phase = .read ∧ respWords s.op ≠ 0 ∧ s.env.reads = []

/-- Only END has no delay (R54). -/
theorem exists_delayMs {o : Op} (h : o ≠ .endOp) : ∃ ms, delayMs o = some ms := by
  cases o with
  | endOp => exact absurd rfl h
  | _ => exact ⟨_, rfl⟩

/-- Without the answer it takes, the step of a phase changes nothing. -/
theorem runningStep_of_silent {s : State} (h : Silent s) : runningStep s = .next s := by
  obtain ⟨hp, hq⟩ | ⟨hp, hq⟩ | ⟨hp, hq⟩ | ⟨hp, ho, hq⟩ | ⟨hp, ho, hq⟩ | ⟨hp, ho, hq⟩ | ⟨hp, hn, hq⟩ := h
  · simp [runningStep, hp, relOldStep, hq]
  · simp [runningStep, hp, relFailStep, hq]
  · simp [runningStep, hp, openStep, hq]
  · simp [runningStep, hp, writeStep, ho, writeGeneralStep, hq]
  · simp [runningStep, hp, writeStep, ho, writeDeviceStep, hq]
  · obtain ⟨ms, hd⟩ := exists_delayMs ho
    simp [runningStep, hp, delayStep, hd, hq]
  · simp [runningStep, hp, readStep, hn, hq]

/-- An idle block waits for no collaborator. -/
theorem Silent.busy {s : State} (h : Silent s) : s.phase ≠ .idle := by
  intro hp
  simp [Silent, hp] at h

/-- A state whose step changes nothing is never left. -/
theorem run_of_step_self {s : State} (h : step s = .next s) (k : Nat) : Sys2Proof.core.run k s = .next s := by
  induction k with
  | zero => rfl
  | succ k ih => rw [run_succ k h, ih]

/-- Settles O34, by induction on the number of steps. -/
theorem silentCollaboratorStallsTheBlock : Obligations.SilentCollaboratorStallsTheBlock := by
  intro s hr he (h : Silent s)
  exact run_of_step_self (by rw [step_busy hr he h.busy, runningStep_of_silent h])

/-! ### The call of a step (R37 to R42, R45) -/

/-- Accept makes no call (R101). -/
@[simp] theorem accepted_trace (o : Op) (a : Addr) (p0 p1 : Word) (s : State) :
    (accepted o a p0 p1 s).trace = s.trace := by
  cases o with
  | beginOp | endOp => rfl
  | getSerial | condition | measureRaw | selfTest | heaterOff | softReset =>
    simp only [accepted, acceptChip]
    split <;> rfl

/-- From `s` to `t` no call was made, or one that `s` may make. -/
def AtMostOneCall (s t : State) : Prop :=
  t.trace = s.trace ∨ ∃ e, t.trace = s.trace ++ [e] ∧ CallOf s e

/-- WRITE makes one of the two writes, by OP. -/
theorem atMostOneCall_writeStep {s t : State} (hp : s.phase = .write) (h : writeStep s = .next t) :
    AtMostOneCall s t := by
  unfold writeStep at h
  split at h <;> rename_i ho
  · obtain ⟨_, rfl⟩ | ⟨a, rest, _, rfl⟩ := writeGeneralStep_cases h
    · exact .inl rfl
    · exact .inr ⟨_, rfl, hp, ho, rfl, rfl⟩
  · obtain ⟨_, rfl⟩ | ⟨rest, _, rfl⟩ | ⟨rest, _, rfl⟩ := writeDeviceStep_cases h
    · exact .inl rfl
    · exact .inr ⟨_, rfl, hp, ho, rfl, rfl⟩
    · exact .inr ⟨_, rfl, hp, ho, rfl, rfl⟩

/-- CHECK makes no call. -/
theorem checkStep_trace {s t : State} (h : checkStep s = .next t) : t.trace = s.trace := by
  obtain ⟨_, rfl⟩ | ⟨_, _, _, _, rfl⟩ | ⟨_, _, _, rfl⟩ := checkStep_cases h <;> rfl

/-- The step of the running operation makes at most the call of its phase. -/
theorem atMostOneCall_runningStep {s t : State} (h : runningStep s = .next t) : AtMostOneCall s t := by
  unfold runningStep at h
  cases hp : s.phase <;> simp only [hp] at h
  case idle => cases h; exact .inl rfl
  case relOld =>
    obtain ⟨_, rfl⟩ | ⟨k, _, rfl⟩ := relOldStep_cases h
    · exact .inl rfl
    · exact .inr ⟨_, rfl, .inl hp, rfl⟩
  case opening =>
    obtain ⟨_, rfl⟩ | ⟨hd, rest, _, rfl⟩ | ⟨rest, _, rfl⟩ := openStep_cases h
    · exact .inl rfl
    · exact .inr ⟨_, rfl, hp, rfl⟩
    · exact .inr ⟨_, rfl, hp, rfl⟩
  case write => exact atMostOneCall_writeStep hp h
  case delay =>
    obtain ⟨ms, hd, ⟨_, rfl⟩ | ⟨k, _, rfl⟩⟩ := delayStep_cases h
    · exact .inl rfl
    · exact .inr ⟨_, rfl, hp, hd⟩
  case read =>
    obtain ⟨_, ⟨_, rfl⟩ | ⟨bs, rest, _, _, rfl⟩ | ⟨ans, rest, _, _, rfl⟩⟩ := readStep_cases h
    · exact .inl rfl
    · exact .inr ⟨_, rfl, hp, rfl, rfl⟩
    · exact .inr ⟨_, rfl, hp, rfl, rfl⟩
  case check => exact .inl (checkStep_trace h)
  case relFail =>
    obtain ⟨_, rfl⟩ | ⟨k, _, rfl⟩ := relFailStep_cases h
    · exact .inl rfl
    · exact .inr ⟨_, rfl, .inr hp, rfl⟩

/-- Settles O58: only the step of a running operation makes a call. -/
theorem eachStepMakesAtMostItsPhasesCall : Obligations.EachStepMakesAtMostItsPhasesCall := by
  intro s t h
  obtain ⟨_, rfl⟩ | ⟨_, p, _, v, rfl⟩ | ⟨_, _, _, _, rfl⟩ | ⟨_, _, _, r, _, rfl⟩ | ⟨_, _, _, hs⟩ := step_cases h
  · exact .inl rfl
  · exact .inl rfl
  · exact .inl rfl
  · exact .inl (accepted_trace ..)
  · exact atMostOneCall_runningStep hs

/-! ### Runs -/

/-- One more step of a run of a busy block. -/
theorem run_busy {s t : State} (k : Nat) (hr : s.rst = false) (he : s.eval = none) (hp : s.phase ≠ .idle)
    (h : runningStep s = .next t) : Sys2Proof.core.run (k + 1) s = Sys2Proof.core.run k t :=
  run_succ k (by rw [step_busy hr he hp, h])

/-- A run of an idle block with a request goes on from its accept. -/
theorem run_accept {s : State} {r : Request} (k : Nat) (hr : s.rst = false) (he : s.eval = none) (hp : s.phase = .idle)
    (hq : s.req = some r) : Sys2Proof.core.run (k + 1) s =
      Sys2Proof.core.run k (accepted (Op.ofSel r.opsel) r.addr r.p0 r.p1 s) :=
  run_succ k (step_accept hr he hp hq)

/-- On a bound block the accept of a chip operation builds its frame and goes to WRITE (R101). -/
theorem acceptChip_bound {s : State} (o : Op) (p0 p1 : Word) (hb : s.bound = true) :
    acceptChip o p0 p1 s = ((s.latch o p0 p1).loadTx (opFrame o p0 p1)).setPhase .write := by
  rw [acceptChip, if_pos hb]

/-- WRITE will send the frame that the accept of a chip operation built. -/
theorem txFrame_accept (s : State) (o : Op) (p0 p1 : Word) :
    (((s.latch o p0 p1).loadTx (opFrame o p0 p1)).setPhase .write).txFrame = opFrame o p0 p1 :=
  txFrame_loadTx _ (length_opFrame ..)

/-! ### SOFT_RESET (R40, R122) -/

/-- In IDLE, SOFT_RESET is accepted. -/
theorem exec_softReset_idle {s : State} (a : Addr) (p0 p1 : Word) (hp : s.phase = .idle) :
    exec (.softReset a p0 p1) s = .next (acceptChip .softReset p0 p1 s) := by
  simp only [exec, execSoftReset, operation, if_pos hp]

/-- SOFT_RESET sends the two bytes of its command word (R56, R122). -/
theorem opFrame_softReset (p0 p1 : Word) : opFrame .softReset p0 p1 = [0x00#8, 0x06#8] := rfl

/-- Settles O47: from its accept SOFT_RESET takes two steps, the general call and the wait. -/
theorem softResetIgnoresTheAnswer : Obligations.SoftResetIgnoresTheAnswer := by
  intro s a p0 p1 ok gs k hr he hp hb hg hz
  refine ⟨⟨_, exec_softReset_idle a p0 p1 hp, ?_⟩, rfl⟩
  rw [acceptChip_bound _ _ _ hb]
  refine Eq.trans (run_busy 1 hr he nofun ((runningStep_of_write rfl).trans (writeStep_general rfl hg))) ?_
  refine Eq.trans (run_delay_slept (ms := 20) (m := k) 0 hr he rfl rfl hz) ?_
  rw [txFrame_accept]
  simp [Host.Core.run, State.setPhase, State.log, State.setEnv, State.loadTx, State.latch, overwrite,
    opFrame_softReset, respWords]

/-- In WRITE a device write which is answered `fail` aborts (R106). -/
theorem run_write_failed {s : State} {ws : List Bool} (k : Nat) (hr : s.rst = false) (he : s.eval = none)
    (hp : s.phase = .write) (ho : s.op ≠ .softReset) (hw : s.env.writes = false :: ws) :
    Sys2Proof.core.run (k + 1) s = Sys2Proof.core.run k
      (((s.setEnv { s.env with writes := ws }).log (.wrote s.hnd s.txFrame false)).raiseFail .eWrite) :=
  run_busy k hr he (by simp [hp]) ((runningStep_of_write hp).trans (writeStep_fail ho hw))

/-- In READ `fail`, and an answer of another length, abort (R108). -/
theorem run_read_failed {s : State} {ans : Option (List Byte)} {rs : List (Option (List Byte))} (k : Nat)
    (hr : s.rst = false) (he : s.eval = none) (hp : s.phase = .read) (hn : respWords s.op ≠ 0)
    (hl : ∀ bs, ans = some bs → bs.length ≠ 3 * respWords s.op) (ha : s.env.reads = ans :: rs) :
    Sys2Proof.core.run (k + 1) s = Sys2Proof.core.run k
      (((s.setEnv { s.env with reads := rs }).log (.didRead s.hnd (3 * respWords s.op) ans)).raiseFail .eRead) :=
  run_busy k hr he (by simp [hp]) ((runningStep_of_read hp).trans (readStep_fail hn hl ha))

/-! ### The three calls of a reading operation (R106 to R109, R113) -/

/-- A reading operation stands in WRITE, and its write, its sleep and its read will be answered. -/
structure Exchange (u : State) (d m : Nat) (ans : Option (List Byte)) (ws : List Bool)
    (rs : List (Option (List Byte))) : Prop where
  rst : u.rst = false
  eval : u.eval = none
  phase : u.phase = .write
  delay : delayMs u.op = some d
  resp : respWords u.op ≠ 0
  writes : u.env.writes = true :: ws
  sleeps : u.env.sleeps = m + 1
  reads : u.env.reads = ans :: rs

/-- The state after the three calls, in READ. -/
def State.exchanged (u : State) (d m : Nat) (ans : Option (List Byte)) (ws : List Bool)
    (rs : List (Option (List Byte))) : State :=
  { u with
    phase := .read, env := { u.env with writes := ws, sleeps := m, reads := rs },
    trace := u.trace ++ [.wrote u.hnd u.txFrame true, .slept d, .didRead u.hnd (3 * respWords u.op) ans] }

/-- A response has at most three words (R54). -/
theorem respWords_le (o : Op) : respWords o ≤ 3 := by cases o <;> decide

/-- SOFT_RESET reads no response. -/
theorem ne_softReset_of_respWords {o : Op} (h : respWords o ≠ 0) : o ≠ .softReset := by
  rintro rfl
  exact h rfl

section
variable {u : State} {d m : Nat} {ans : Option (List Byte)} {bs : List Byte} {vs : List Word} {ws : List Bool}
  {rs : List (Option (List Byte))}

/-- The write and the sleep lead to READ. -/
theorem Exchange.run_to_read (h : Exchange u d m ans ws rs) (k : Nat) :
    Sys2Proof.core.run (k + 2) u = Sys2Proof.core.run k
      ((((u.setEnv { u.env with writes := ws, sleeps := m }).log (.wrote u.hnd u.txFrame true)).log
        (.slept d)).setPhase .read) := by
  rw [run_write_sent (k + 1) h.rst h.eval h.phase (ne_softReset_of_respWords h.resp) h.writes]
  refine Eq.trans (run_delay_slept (ms := d) (m := m) k h.rst h.eval rfl h.delay h.sleeps) ?_
  simp [h.resp, State.log, State.setEnv, State.setPhase]

/-- A read that fails, or gives another length, aborts after the three calls. -/
theorem Exchange.run_to_readFail (h : Exchange u d m ans ws rs)
    (hl : ∀ bs, ans = some bs → bs.length ≠ 3 * respWords u.op) (k : Nat) :
    Sys2Proof.core.run (k + 3) u = Sys2Proof.core.run k ((u.exchanged d m ans ws rs).raiseFail .eRead) := by
  rw [h.run_to_read (k + 1), run_read_failed (ans := ans) (rs := rs) k]
  · simp [State.exchanged, State.log, State.setEnv, State.setPhase]
  case hl => simpa using hl
  all_goals simp [h.rst, h.eval, h.resp, h.reads]

/-- A read of the requested length leads to CHECK. -/
theorem Exchange.run_to_check (h : Exchange u d m (some bs) ws rs) (hl : bs.length = 3 * respWords u.op) (k : Nat) :
    Sys2Proof.core.run (k + 3) u = Sys2Proof.core.run k
      (((u.exchanged d m (some bs) ws rs).loadRx bs).setPhase .check) := by
  rw [h.run_to_read (k + 1), run_read_received (bs := bs) (rs := rs) k]
  · simp [State.exchanged, State.log, State.setEnv, State.setPhase]
  all_goals simp [h.rst, h.eval, h.resp, h.reads, hl]

/-- CHECK finds the bytes that were read. -/
theorem rxFrame_received (w : State) (hl : bs.length = 3 * respWords u.op) :
    ((w.loadRx bs).setPhase .check).rxFrame = bs :=
  rxFrame_loadRx w (by have := respWords_le u.op; omega)

/-- A wrong checksum aborts after the three calls. -/
theorem Exchange.run_to_badCrc (h : Exchange u d m (some bs) ws rs) (hl : bs.length = 3 * respWords u.op)
    (hv : parseBytes bs (respWords u.op) = .badCrc) (k : Nat) :
    Sys2Proof.core.run (k + 4) u = Sys2Proof.core.run k
      (((u.exchanged d m (some bs) ws rs).loadRx bs).raiseFail .eCrc) := by
  rw [h.run_to_check hl (k + 1)]
  exact run_busy k h.rst h.eval nofun (checkStep_badCrc (by rw [rxFrame_received _ hl]; exact hv))

/-- A rejected identity aborts BEGIN after the three calls. -/
theorem Exchange.run_to_identBad (h : Exchange u d m (some bs) ws rs) (hl : bs.length = 3 * respWords u.op)
    (hv : parseBytes bs (respWords u.op) = .ok vs) (ho : u.op = .beginOp) (hi : identBad vs = true) (k : Nat) :
    Sys2Proof.core.run (k + 4) u = Sys2Proof.core.run k
      (((u.exchanged d m (some bs) ws rs).loadRx bs).raiseFail .eIdent) := by
  rw [h.run_to_check hl (k + 1)]
  exact run_busy k h.rst h.eval nofun (checkStep_identBad (by rw [rxFrame_received _ hl]; exact hv) ho hi)

/-- A response that is accepted leaves its words. -/
theorem Exchange.run_to_loaded (h : Exchange u d m (some bs) ws rs) (hl : bs.length = 3 * respWords u.op)
    (hv : parseBytes bs (respWords u.op) = .ok vs) (hi : ¬(u.op = .beginOp ∧ identBad vs = true)) (k : Nat) :
    Sys2Proof.core.run (k + 4) u = Sys2Proof.core.run k
      ((((u.exchanged d m (some bs) ws rs).loadRx bs).loadWords vs (respWords u.op)).setPhase .idle) := by
  rw [h.run_to_check hl (k + 1)]
  exact run_check_loaded k h.rst h.eval rfl (by rw [rxFrame_received _ hl]; exact hv) hi

end

/-! ### The response by outcome (R39, R90) -/

/-- An answer to a read has the requested length or counts as `fail` (R39). -/
theorem answer_cases (ans : Option (List Byte)) (l : Nat) :
    (∀ bs, ans = some bs → bs.length ≠ l) ∨ ∃ bs, ans = some bs ∧ bs.length = l := by
  by_cases h : ∃ bs, ans = some bs ∧ bs.length = l
  · exact .inr h
  · exact .inl fun bs hb hl => h ⟨bs, hb, hl⟩

/-- A response of the requested length is inside the parser's contract: it fails, or has as many words as asked for. -/
theorem parseBytes_of_length {bs : List Byte} {n : Nat} (hn : n ≤ 3) (hl : bs.length = 3 * n) :
    parseBytes bs n = .badCrc ∨ ∃ vs, vs.length = n ∧ parseBytes bs n = .ok vs := by
  obtain ⟨_, vs, hs, hv⟩ | ⟨_, _, hv⟩ | ⟨hd, _⟩ := parseBytes_cases bs n
  · exact .inr ⟨vs, (scanTriplets_some hs).1, hv⟩
  · exact .inl hv
  · rw [(parseDomain_iff bs n).2 ⟨hn, hl.ge⟩] at hd
    cases hd

/-- Up to three words over blank registers. -/
theorem getD_words {vs : List Word} (h : vs.length ≤ 3) :
    [vs.getD 0 0, vs.getD 1 0, vs.getD 2 0] = vs ++ List.replicate (3 - vs.length) 0 := by
  match vs, h with
  | [], _ | [_], _ | [_, _], _ | [_, _, _], _ => rfl

/-! ### The four reading operations, by outcome (R113) -/

/-- Delay, response count and need of a binding of the four operations that read a response on a bound block (R54). -/
theorem reading_of_mem {o : Op} {d n : Nat}
    (h : (o, d, n) ∈ [(Op.getSerial, 1, 3), (.condition, 50, 1), (.measureRaw, 50, 2), (.selfTest, 320, 1)]) :
    delayMs o = some d ∧ n = respWords o ∧ respWords o ≠ 0 ∧ needsBound o = true := by
  simp only [List.mem_cons, Prod.mk.injEq, List.not_mem_nil, or_false] at h
  obtain ⟨rfl, rfl, rfl⟩ | ⟨rfl, rfl, rfl⟩ | ⟨rfl, rfl, rfl⟩ | ⟨rfl, rfl, rfl⟩ := h <;> exact ⟨rfl, rfl, nofun, rfl⟩

/-- The accept of an operation that needs a binding is that of a chip operation. -/
theorem accepted_of_needsBound {o : Op} (h : needsBound o = true) (a : Addr) (p0 p1 : Word) (s : State) :
    accepted o a p0 p1 s = acceptChip o p0 p1 s := by
  cases o with
  | beginOp | endOp => cases h
  | getSerial | condition | measureRaw | selfTest | heaterOff | softReset => rfl

/-- BEGIN does not need a binding. -/
theorem ne_beginOp_of_needsBound {o : Op} (h : needsBound o = true) : o ≠ .beginOp := by
  rintro rfl
  cases h

/-- A requested chip operation is accepted on a bound block, and stands in WRITE. -/
theorem run_accept_chip {s : State} {r : Request} {o : Op} (k : Nat) (hr : s.rst = false) (he : s.eval = none)
    (hp : s.phase = .idle) (hb : s.bound = true) (hq : s.req = some r) (ho : Op.ofSel r.opsel = o)
    (hc : needsBound o = true) :
    Sys2Proof.core.run (k + 1) s = Sys2Proof.core.run k
      (((s.latch o r.p0 r.p1).loadTx (opFrame o r.p0 r.p1)).setPhase .write) := by
  rw [run_accept k hr he hp hq, ho, accepted_of_needsBound hc, acceptChip_bound _ _ _ hb]

/-- Settles O48, by the answers of the write and of the read, and by what the parser says of the response. -/
theorem readingOperationByOutcome : Obligations.ReadingOperationByOutcome := by
  intro s r o d n wok ws ans rs k hr he hp hb hq ho hm hw hz ha
  obtain ⟨hd, rfl, hn, hc⟩ := reading_of_mem hm
  have hnb : o ≠ .beginOp := ne_beginOp_of_needsBound hc
  have hacc := fun j => run_accept_chip j hr he hp hb hq ho hc
  have htx := txFrame_accept s o r.p0 r.p1
  cases wok with
  | false =>
    refine ⟨2, _, (hacc 1).trans (run_write_failed 0 hr he rfl (ne_softReset_of_respWords hn) hw), by simp [hnb], rfl,
      hb, rfl, rfl, fun _ => ⟨rfl, rfl, rfl, rfl, ?_⟩, nofun, nofun, nofun⟩
    simp [htx]
  | true =>
    have hx : Exchange (((s.latch o r.p0 r.p1).loadTx (opFrame o r.p0 r.p1)).setPhase .write) d k ans ws rs :=
      ⟨hr, he, rfl, hd, hn, hw, hz, ha⟩
    obtain hl | ⟨bs, rfl, hl⟩ := answer_cases ans (3 * respWords o)
    · refine ⟨4, _, (hacc 3).trans (hx.run_to_readFail hl 0), by simp [hnb, State.exchanged], rfl, hb, rfl, rfl, nofun,
        fun _ _ => ⟨rfl, rfl, rfl, rfl, ?_⟩, fun bs _ e h => absurd h (hl bs e), fun bs _ _ e h => absurd h (hl bs e)⟩
      simp [State.exchanged, htx]
    obtain hv | ⟨vs, hvl, hv⟩ := parseBytes_of_length (respWords_le o) hl
    · refine ⟨5, _, (hacc 4).trans (hx.run_to_badCrc hl hv 0), by simp [hnb, State.exchanged], rfl, hb, rfl, rfl, nofun,
        fun _ h => absurd hl (h bs rfl), fun _ _ _ _ _ => ⟨rfl, rfl, rfl, rfl, ?_⟩, ?_⟩
      · simp [State.exchanged, htx]
      · rintro _ _ - ⟨⟩ - h
        simp [hv] at h
    · refine ⟨5, _, (hacc 4).trans (hx.run_to_loaded hl hv (fun h => hnb h.1) 0), rfl, rfl, hb, rfl, rfl, nofun,
        fun _ h => absurd hl (h bs rfl), ?_, ?_⟩
      · rintro _ - ⟨⟩ - h
        simp [hv] at h
      · rintro _ vs' - ⟨⟩ - h
        obtain rfl : vs = vs' := by simpa [hv] using h
        refine ⟨rfl, rfl, rfl, ?_, ?_⟩
        · rw [← hvl]
          exact getD_words (hvl.trans_le (respWords_le o))
        · simp [State.exchanged, htx]

/-! ### BEGIN on an unbound block, by outcome (R113) -/

/-- BEGIN in WRITE, on the binding it has just opened (R105). -/
def beginOpened (r : Request) (h : Handle) (os : List (Option Handle)) (s : State) : State :=
  (((((acceptBegin r.addr r.p0 r.p1 s).setEnv { s.env with opens := os }).log (.opened r.addr (some h))).bind h).loadTx
    (frameBytes 0x3682#16 [])).setPhase .write

@[simp] theorem beginOpened_trace (r : Request) (h : Handle) (os : List (Option Handle)) (s : State) :
    (beginOpened r h os s).trace = s.trace ++ [.opened r.addr (some h)] := rfl

@[simp] theorem beginOpened_hnd (r : Request) (h : Handle) (os : List (Option Handle)) (s : State) :
    (beginOpened r h os s).hnd = h := rfl

@[simp] theorem beginOpened_op (r : Request) (h : Handle) (os : List (Option Handle)) (s : State) :
    (beginOpened r h os s).op = .beginOp := rfl

/-- BEGIN sends the get-serial-number command (R54, R105). -/
@[simp] theorem txFrame_beginOpened (r : Request) (h : Handle) (os : List (Option Handle)) (s : State) :
    (beginOpened r h os s).txFrame = [0x36#8, 0x82#8] := txFrame_loadTx _ (by decide)

/-- A requested BEGIN is accepted. -/
theorem run_accept_begin {s : State} {r : Request} (k : Nat) (hr : s.rst = false) (he : s.eval = none)
    (hp : s.phase = .idle) (hq : s.req = some r) (ho : r.opsel = 0) :
    Sys2Proof.core.run (k + 1) s = Sys2Proof.core.run k (acceptBegin r.addr r.p0 r.p1 s) := by
  rw [run_accept k hr he hp hq, ho]
  rfl

/-- Accept of BEGIN on an unbound block goes to OPEN. -/
theorem acceptBegin_phase_unbound {s : State} (a : Addr) (p0 p1 : Word) (hb : s.bound = false) :
    (acceptBegin a p0 p1 s).phase = .opening := by
  simp [acceptBegin, hb]

/-- On an unbound block BEGIN and a handle lead to WRITE. -/
theorem run_begin_opened {s : State} {r : Request} {h : Handle} {os : List (Option Handle)} (k : Nat)
    (hr : s.rst = false) (he : s.eval = none) (hp : s.phase = .idle) (hb : s.bound = false) (hq : s.req = some r)
    (ho : r.opsel = 0) (ha : s.env.opens = some h :: os) :
    Sys2Proof.core.run (k + 2) s = Sys2Proof.core.run k (beginOpened r h os s) := by
  have hopen := acceptBegin_phase_unbound r.addr r.p0 r.p1 hb
  rw [run_accept_begin (k + 1) hr he hp hq ho]
  exact run_busy k hr he (by simp [hopen]) ((runningStep_of_opening hopen).trans (openStep_handle ha))

/-- On an unbound block BEGIN and `fail` abort. -/
theorem run_begin_openFail {s : State} {r : Request} {os : List (Option Handle)} (k : Nat)
    (hr : s.rst = false) (he : s.eval = none) (hp : s.phase = .idle) (hb : s.bound = false) (hq : s.req = some r)
    (ho : r.opsel = 0) (ha : s.env.opens = none :: os) :
    Sys2Proof.core.run (k + 2) s = Sys2Proof.core.run k
      ((((acceptBegin r.addr r.p0 r.p1 s).setEnv { s.env with opens := os }).log
        (.opened r.addr none)).raiseFail .eOpen) := by
  have hopen := acceptBegin_phase_unbound r.addr r.p0 r.p1 hb
  rw [run_accept_begin (k + 1) hr he hp hq ho]
  exact run_busy k hr he (by simp [hopen]) ((runningStep_of_opening hopen).trans (openStep_fail ha))

/-- A failed BEGIN after its release: the code stands in STATUS, the binding is given back (R112). -/
def State.givenUp (u : State) (c : Status) (m : Nat) : State :=
  { u with
    status := c, phase := .idle, bound := false, env := { u.env with releases := m },
    trace := u.trace ++ [.released u.hnd] }

/-- A BEGIN that fails with a binding releases it in the next step. -/
theorem run_raiseFail_begin {u : State} {c : Status} {m : Nat} (k : Nat) (hr : u.rst = false) (he : u.eval = none)
    (ho : u.op = .beginOp) (hb : u.bound = true) (hm : u.env.releases = m + 1) :
    Sys2Proof.core.run (k + 1) (u.raiseFail c) = Sys2Proof.core.run k (u.givenUp c m) := by
  have hp : (u.raiseFail c).phase = .relFail := by simp [ho, hb]
  rw [run_busy (s := u.raiseFail c) k hr he (by rw [hp]; nofun)
    ((runningStep_of_relFail hp).trans (relFailStep_released (m := m) hm))]
  simp [State.givenUp, State.log, State.setEnv, State.unbind, State.setPhase, State.raiseFail]

/-- Settles O49, by the answers of the open, of the write and of the read, and by what the parser and the identity check
say of the response. -/
theorem beginByOutcome : Obligations.BeginByOutcome := by
  intro s r oa os wok ws ans rs k m hr he hp hb hq ho hoa hw hz ha hm
  cases oa with
  | none =>
    refine ⟨2, _, run_begin_openFail 0 hr he hp hb hq ho hoa, ?_, rfl, rfl, fun _ => ⟨rfl, rfl, hb, rfl, rfl, rfl⟩,
      nofun, nofun, nofun, nofun, nofun⟩
    simp [acceptBegin, hb]
  | some h =>
  have hopen := fun j => run_begin_opened j hr he hp hb hq ho hoa
  cases wok with
  | false =>
    refine ⟨4, _, (hopen 2).trans ((run_write_failed (s := beginOpened r h os s) 1 hr he rfl (by simp) hw).trans
      (run_raiseFail_begin 0 hr he rfl rfl hm)), rfl, rfl, rfl, nofun, ?_, nofun, nofun, nofun, nofun⟩
    rintro _ ⟨⟩ -
    refine ⟨rfl, rfl, rfl, rfl, rfl, ?_⟩
    simp [State.givenUp]
  | true =>
  have hx : Exchange (beginOpened r h os s) 1 k ans ws rs := ⟨hr, he, rfl, rfl, nofun, hw, hz, ha⟩
  obtain hl | ⟨bs, rfl, hl⟩ := answer_cases ans 9
  · refine ⟨6, _, (hopen 4).trans ((hx.run_to_readFail hl 1).trans (run_raiseFail_begin 0 hr he rfl rfl hm)),
      rfl, rfl, rfl, nofun, nofun, ?_, fun _ bs _ _ e h => absurd h (hl bs e), fun _ bs _ _ _ e h => absurd h (hl bs e),
      fun _ bs _ _ _ e h => absurd h (hl bs e)⟩
    rintro _ ⟨⟩ - -
    refine ⟨rfl, rfl, rfl, rfl, rfl, ?_⟩
    simp [State.givenUp, State.exchanged, respWords]
  obtain hv | ⟨vs, hvl, hv⟩ := parseBytes_of_length (n := 3) le_rfl hl
  · refine ⟨7, _, (hopen 5).trans ((hx.run_to_badCrc hl hv 1).trans (run_raiseFail_begin 0 hr he rfl rfl hm)),
      rfl, rfl, rfl, nofun, nofun, fun _ _ _ h => absurd hl (h bs rfl), ?_, ?_, ?_⟩
    · rintro _ _ ⟨⟩ - ⟨⟩ - -
      refine ⟨rfl, rfl, rfl, rfl, rfl, ?_⟩
      simp [State.givenUp, State.exchanged, respWords]
    · rintro _ _ _ - - ⟨⟩ - hv'
      simp [hv] at hv'
    · rintro _ _ _ - - ⟨⟩ - hv'
      simp [hv] at hv'
  cases hi : identBad vs with
  | true =>
    refine ⟨7, _, (hopen 5).trans ((hx.run_to_identBad hl hv rfl hi 1).trans (run_raiseFail_begin 0 hr he rfl rfl hm)),
      rfl, rfl, rfl, nofun, nofun, fun _ _ _ h => absurd hl (h bs rfl), ?_, ?_, ?_⟩
    · rintro _ _ - - ⟨⟩ - hv'
      simp [hv] at hv'
    · rintro _ _ _ ⟨⟩ - ⟨⟩ - - -
      refine ⟨rfl, rfl, rfl, rfl, rfl, ?_⟩
      simp [State.givenUp, State.exchanged, respWords]
    · rintro _ _ vs' - - ⟨⟩ - hv' hi'
      obtain rfl : vs = vs' := by simpa [hv] using hv'
      simp [hi] at hi'
  | false =>
    refine ⟨6, _, (hopen 4).trans (hx.run_to_loaded hl hv (by simp [hi]) 0),
      rfl, rfl, rfl, nofun, nofun, fun _ _ _ h => absurd hl (h bs rfl), ?_, ?_, ?_⟩
    · rintro _ _ - - ⟨⟩ - hv'
      simp [hv] at hv'
    · rintro _ _ vs' - - ⟨⟩ - hv' hi'
      obtain rfl : vs = vs' := by simpa [hv] using hv'
      simp [hi] at hi'
    · rintro _ _ vs' ⟨⟩ - ⟨⟩ - hv' -
      obtain rfl : vs = vs' := by simpa [hv] using hv'
      refine ⟨rfl, rfl, rfl, rfl, rfl, ?_, ?_⟩
      · exact (getD_words hvl.le).trans (by simp [hvl])
      · simp [State.exchanged, respWords]

/-! ### Termination (R49, R114) -/

/-- Within `n` steps the block has ended operation `o`, with a code which that operation can end with (R152). -/
def EndsWithin (n : Nat) (o : Op) (s : State) : Prop :=
  ∃ k t, k ≤ n ∧ Sys2Proof.core.run k s = .next t ∧ t.phase = .idle ∧ t.req = none ∧ t.op = o ∧
    allowedStatus o t.status = true

/-- An operation runs: nothing at the ports, no failure so far, and the release of a BEGIN that may fail will return. -/
structure Running (o : Op) (s : State) : Prop where
  rst : s.rst = false
  eval : s.eval = none
  req : s.req = none
  op : s.op = o
  status : s.status = .ok
  releases : ∃ m, s.env.releases = m + 1

/-- What does not touch the ports, OP, STATUS or the releases to come leaves the operation running. -/
theorem Running.congr {o : Op} {s t : State} (h : Running o s) (ht : t.rst = s.rst ∧ t.eval = s.eval ∧ t.req = s.req ∧
    t.op = s.op ∧ t.status = s.status ∧ t.env.releases = s.env.releases) : Running o t := by
  obtain ⟨hr, he, hq, ho, hst, hm⟩ := ht
  exact ⟨hr ▸ h.rst, he ▸ h.eval, hq ▸ h.req, ho ▸ h.op, hst ▸ h.status, hm ▸ h.releases⟩

theorem EndsWithin.mono {n n' : Nat} {o : Op} {s : State} (h : EndsWithin n o s) (hn : n ≤ n') : EndsWithin n' o s := by
  obtain ⟨k, t, hk, ht⟩ := h
  exact ⟨k, t, hk.trans hn, ht⟩

/-- A step towards the end. -/
theorem EndsWithin.step {n : Nat} {o : Op} {s t : State}
    (hs : ∀ k, Sys2Proof.core.run (k + 1) s = Sys2Proof.core.run k t) (h : EndsWithin n o t) :
    EndsWithin (n + 1) o s := by
  obtain ⟨k, u, hk, hrun, hu⟩ := h
  exact ⟨k + 1, u, Nat.succ_le_succ hk, (hs k).trans hrun, hu⟩

/-- An operation that is back in IDLE has ended. -/
theorem EndsWithin.done {o : Op} {s : State} (h : s.phase = .idle ∧ s.req = none ∧ s.op = o)
    (hs : allowedStatus o s.status = true) : EndsWithin 0 o s :=
  ⟨0, s, le_rfl, rfl, h.1, h.2.1, h.2.2, hs⟩

/-- Every operation can end with OK (R152). -/
theorem allowedStatus_ok (o : Op) : allowedStatus o .ok = true := by cases o <;> rfl

/-- An operation that reads a response can end with E_READ and with E_CRC (R152). -/
theorem allowedStatus_of_respWords {o : Op} (h : respWords o ≠ 0) :
    allowedStatus o .eRead = true ∧ allowedStatus o .eCrc = true := by
  cases o with
  | endOp | heaterOff | softReset => exact absurd rfl h
  | beginOp | getSerial | condition | measureRaw | selfTest => exact ⟨rfl, rfl⟩

/-- Every operation that writes to the device can end with E_WRITE (R152). -/
theorem allowedStatus_eWrite {o : Op} (he : o ≠ .endOp) (hs : o ≠ .softReset) : allowedStatus o .eWrite = true := by
  cases o with
  | endOp => exact absurd rfl he
  | softReset => exact absurd rfl hs
  | beginOp | getSerial | condition | measureRaw | selfTest | heaterOff => rfl

/-- A failure ends the operation at once, or after the release of a failed BEGIN. -/
theorem endsWithin_raiseFail {o : Op} {s : State} {c : Status} (h : Running o s) (hc : allowedStatus o c = true) :
    EndsWithin 1 o (s.raiseFail c) := by
  obtain ⟨ho, hb, _⟩ | ⟨_, hp⟩ := raiseFail_phase_cases s c
  · obtain ⟨m, hm⟩ := h.releases
    exact .step (fun k => run_raiseFail_begin k h.rst h.eval ho hb hm) (.done ⟨rfl, h.req, h.op⟩ hc)
  · exact EndsWithin.mono (n := 0) (.done ⟨hp, h.req, h.op⟩ hc) (by decide)

/-- From CHECK, with a whole response in RXBUF. -/
theorem endsWithin_check {o : Op} {s : State} (h : Running o s) (hp : s.phase = .check) (hn : respWords o ≠ 0)
    (hl : s.rxFrame.length = 3 * respWords o) : EndsWithin 2 o s := by
  have hbusy : s.phase ≠ .idle := by rw [hp]; nofun
  obtain hv | ⟨vs, _, hv⟩ := parseBytes_of_length (respWords_le o) hl <;> rw [← h.op] at hv
  · exact .step (fun k => run_busy k h.rst h.eval hbusy ((runningStep_of_check hp).trans (checkStep_badCrc hv)))
      (endsWithin_raiseFail h (allowedStatus_of_respWords hn).2)
  by_cases hi : s.op = .beginOp ∧ identBad vs = true
  · obtain ⟨hb, hi⟩ := hi
    refine .step (fun k => run_busy k h.rst h.eval hbusy ((runningStep_of_check hp).trans
      (checkStep_identBad hv hb hi))) (endsWithin_raiseFail h ?_)
    rw [← h.op, hb]
    rfl
  · refine EndsWithin.mono (n := 1) (.step (fun k => run_check_loaded k h.rst h.eval hp hv hi)
      (.done ⟨rfl, h.req, h.op⟩ ?_)) (by decide)
    simp [h.status, allowedStatus_ok]

/-- From READ, with an answer to come. -/
theorem endsWithin_read {o : Op} {s : State} (h : Running o s) (hp : s.phase = .read) (hn : respWords o ≠ 0)
    (ha : s.env.reads ≠ []) : EndsWithin 3 o s := by
  obtain ⟨ans, rs, ha⟩ := List.exists_cons_of_ne_nil ha
  have hn' : respWords s.op ≠ 0 := by rw [h.op]; exact hn
  obtain hl | ⟨bs, rfl, hl⟩ := answer_cases ans (3 * respWords s.op)
  · refine EndsWithin.mono (n := 2) (.step (fun k => run_read_failed k h.rst h.eval hp hn' hl ha) ?_) (by decide)
    exact endsWithin_raiseFail (h.congr (by simp)) (allowedStatus_of_respWords hn).1
  · refine .step (fun k => run_read_received k h.rst h.eval hp hn' hl ha) ?_
    refine endsWithin_check (h.congr (by simp)) (by simp) hn ?_
    rw [rxFrame_received _ hl, hl, h.op]

/-- From DELAY, with the return of the sleep and an answer to the read to come. -/
theorem endsWithin_delay {o : Op} {s : State} (h : Running o s) (hp : s.phase = .delay) (ho : o ≠ .endOp)
    (hz : 1 ≤ s.env.sleeps) (ha : s.env.reads ≠ []) : EndsWithin 4 o s := by
  obtain ⟨m, hz⟩ := Nat.exists_eq_add_of_le' hz
  obtain ⟨ms, hd⟩ := exists_delayMs ho
  refine .step (fun k => run_delay_slept k h.rst h.eval hp (by rw [h.op]; exact hd) hz) ?_
  rw [h.op]
  by_cases hn : respWords o = 0
  · rw [if_pos hn]
    refine EndsWithin.mono (n := 0) (.done ⟨by simp, by simp [h.req], by simp [h.op]⟩ ?_) (by decide)
    simp [h.status, allowedStatus_ok]
  · rw [if_neg hn]
    exact endsWithin_read (h.congr (by simp)) (by simp) hn (by simpa using ha)

/-- From WRITE, with answers to either write to come. -/
theorem endsWithin_write {o : Op} {s : State} (h : Running o s) (hp : s.phase = .write) (ho : o ≠ .endOp)
    (hw : s.env.writes ≠ []) (hg : s.env.generals ≠ []) (hz : 1 ≤ s.env.sleeps) (ha : s.env.reads ≠ []) :
    EndsWithin 5 o s := by
  obtain ⟨ok, gs, hg⟩ := List.exists_cons_of_ne_nil hg
  obtain ⟨wok, ws, hw⟩ := List.exists_cons_of_ne_nil hw
  by_cases hs : s.op = .softReset
  · refine .step (fun k => run_busy k h.rst h.eval (by simp [hp]) ((runningStep_of_write hp).trans
      (writeStep_general hs hg))) ?_
    exact endsWithin_delay (h.congr (by simp)) (by simp) ho (by simpa using hz) (by simpa using ha)
  cases wok with
  | true =>
    refine .step (fun k => run_write_sent k h.rst h.eval hp hs hw) ?_
    exact endsWithin_delay (h.congr (by simp)) (by simp) ho (by simpa using hz) (by simpa using ha)
  | false =>
    refine EndsWithin.mono (n := 2) (.step (fun k => run_write_failed k h.rst h.eval hp hs hw) ?_) (by decide)
    exact endsWithin_raiseFail (h.congr (by simp)) (allowedStatus_eWrite ho (h.op ▸ hs))

/-- From OPEN, with answers to every call of BEGIN to come. -/
theorem endsWithin_opening {s : State} (h : Running .beginOp s) (hp : s.phase = .opening)
    (hop : s.env.opens ≠ []) (hw : s.env.writes ≠ []) (hg : s.env.generals ≠ []) (hz : 1 ≤ s.env.sleeps)
    (ha : s.env.reads ≠ []) : EndsWithin 6 .beginOp s := by
  obtain ⟨oa, os, hop⟩ := List.exists_cons_of_ne_nil hop
  have hbusy : s.phase ≠ .idle := by rw [hp]; nofun
  cases oa with
  | some hd =>
    refine .step (fun k => run_busy k h.rst h.eval hbusy ((runningStep_of_opening hp).trans (openStep_handle hop))) ?_
    exact endsWithin_write (h.congr (by simp)) (by simp) nofun (by simpa using hw) (by simpa using hg)
      (by simpa using hz) (by simpa using ha)
  | none =>
    refine EndsWithin.mono (n := 2) (.step
      (fun k => run_busy k h.rst h.eval hbusy ((runningStep_of_opening hp).trans (openStep_fail hop))) ?_) (by decide)
    exact endsWithin_raiseFail (h.congr (by simp)) rfl

/-- The release in REL_OLD, of BEGIN or END, returns. -/
theorem run_relOld_released {s : State} {m : Nat} (k : Nat) (hr : s.rst = false) (he : s.eval = none)
    (hp : s.phase = .relOld) (hm : s.env.releases = m + 1) :
    Sys2Proof.core.run (k + 1) s = Sys2Proof.core.run k
      ((((s.setEnv { s.env with releases := m }).log (.released s.hnd)).unbind).setPhase
        (if s.op = .beginOp then .opening else .idle)) :=
  run_busy k hr he (by simp [hp]) ((runningStep_of_relOld hp).trans (relOldStep_released hm))

/-- An accepted BEGIN. -/
theorem endsWithin_acceptBegin {s : State} (a : Addr) (p0 p1 : Word) (hr : s.rst = false) (he : s.eval = none)
    (h : Answered s.env) : EndsWithin 7 .beginOp (acceptBegin a p0 p1 s) := by
  obtain ⟨hop, hw, hg, ha, hm, hz⟩ := h
  obtain ⟨m, hm⟩ := Nat.exists_eq_add_of_le' hm
  cases hb : s.bound with
  | true =>
    refine .step (fun k => run_relOld_released (m := m + 1) k hr he (by simp [acceptBegin, hb]) hm) ?_
    exact endsWithin_opening ⟨hr, he, rfl, rfl, rfl, m, rfl⟩ rfl hop hw hg hz ha
  | false =>
    refine EndsWithin.mono (n := 6) ?_ (by decide)
    exact endsWithin_opening ⟨hr, he, rfl, rfl, rfl, m + 1, hm⟩ (acceptBegin_phase_unbound a p0 p1 hb) hop hw hg hz ha

/-- An accepted END. -/
theorem endsWithin_acceptEnd {s : State} (p0 p1 : Word) (hr : s.rst = false) (he : s.eval = none)
    (h : Answered s.env) : EndsWithin 1 .endOp (acceptEnd p0 p1 s) := by
  obtain ⟨_, _, _, _, hm, _⟩ := h
  obtain ⟨m, hm⟩ := Nat.exists_eq_add_of_le' hm
  cases hb : s.bound with
  | true =>
    refine .step (fun k => run_relOld_released (m := m + 1) k hr he (by simp [acceptEnd, hb]) hm) ?_
    exact .done ⟨rfl, rfl, rfl⟩ rfl
  | false =>
    refine EndsWithin.mono (n := 0) ?_ (by decide)
    exact .done ⟨by simp [acceptEnd, hb], rfl, rfl⟩ rfl

/-- An accepted chip operation. -/
theorem endsWithin_acceptChip {s : State} {o : Op} (p0 p1 : Word) (hc : needsBound o = true) (hr : s.rst = false)
    (he : s.eval = none) (h : Answered s.env) : EndsWithin 5 o (acceptChip o p0 p1 s) := by
  obtain ⟨_, hw, hg, ha, hm, hz⟩ := h
  obtain ⟨m, hm⟩ := Nat.exists_eq_add_of_le' hm
  unfold acceptChip
  split
  · refine endsWithin_write ⟨hr, he, rfl, rfl, rfl, m + 1, hm⟩ rfl ?_ hw hg hz ha
    rintro rfl
    cases hc
  · refine EndsWithin.mono (n := 0) (.done ⟨rfl, rfl, rfl⟩ ?_) (by decide)
    cases o with
    | beginOp | endOp => cases hc
    | getSerial | condition | measureRaw | selfTest | heaterOff | softReset => rfl

/-- Every accepted operation ends within seven more steps. -/
theorem endsWithin_accepted {s : State} (o : Op) (a : Addr) (p0 p1 : Word) (hr : s.rst = false) (he : s.eval = none)
    (h : Answered s.env) : EndsWithin 7 o (accepted o a p0 p1 s) := by
  cases o with
  | beginOp => exact endsWithin_acceptBegin a p0 p1 hr he h
  | endOp => exact (endsWithin_acceptEnd p0 p1 hr he h).mono (by decide)
  | getSerial | condition | measureRaw | selfTest | heaterOff | softReset =>
    exact (endsWithin_acceptChip p0 p1 rfl hr he h).mono (by decide)

/-- Settles O57: the accept step, then backwards from IDLE through the phases. -/
theorem operationEndsWithinEightSteps : Obligations.OperationEndsWithinEightSteps := by
  intro s r hinv hp he hq ha
  obtain ⟨k, t, hk, hrun, hidle, hreq, hop, hst⟩ :=
    endsWithin_accepted (Op.ofSel r.opsel) r.addr r.p0 r.p1 hinv.noReset he ha
  refine ⟨k + 1, t, Nat.succ_pos k, Nat.succ_le_succ hk, ?_, hidle, hreq, hop, by rw [hop]; exact hst⟩
  rw [run_accept k hinv.noReset he hp hq, hrun]

end Sys2Proof.Machine
end

section
/-! PROOF. The encoding (30_encoding.md): decoder and encoder invert each other, port by port, then the words, selectors
and pseudo-operations written out from the spec, and the DELAY step with the delays of R54. -/

namespace Sys2Proof.Machine

/-! ### The request port (R52, R53; log entry 5) -/

/-- A selector is written in a byte with five zero bits above it. -/
theorem zeroExtend_sel (v : BitVec 3) : v.zeroExtend 8 = 0#5 ++ v := by
  revert v
  decide

/-- A byte whose high five bits are zero is the byte of its low three bits. -/
theorem zeroExtend_low_of_high_zero {b : Byte} (h : b.extractLsb' 3 5 = 0#5) :
    (b.extractLsb' 0 3).zeroExtend 8 = b :=
  calc (b.extractLsb' 0 3).zeroExtend 8
    _ = b.extractLsb' 3 5 ++ b.extractLsb' 0 3 := by rw [zeroExtend_sel, h]
    _ = b.extractLsb' 0 (5 + 3) := BitVec.extractLsb'_append_extractLsb'_eq_extractLsb' rfl
    _ = b := BitVec.extractLsb'_eq_self

/-- A request is read back from its six bytes. -/
@[simp] theorem requestOfBytes_requestBytes (r : Request) : requestOfBytes (requestBytes r) = .ok r := by
  have hhigh : (r.opsel.zeroExtend 8).extractLsb' 3 5 = 0#5 := by
    rw [zeroExtend_sel, BitVec.extractLsb'_append_eq_left]
  have hlow : (r.opsel.zeroExtend 8).extractLsb' 0 3 = r.opsel := by
    rw [zeroExtend_sel, BitVec.extractLsb'_append_eq_right]
  simp only [requestBytes, requestOfBytes, if_pos hhigh, hlow, mkWord_hi_lo]

/-- Bytes read as a request are that request's bytes. -/
theorem requestBytes_of_requestOfBytes {bs : List Byte} {r : Request} (h : requestOfBytes bs = .ok r) :
    requestBytes r = bs := by
  unfold requestOfBytes at h
  split at h
  · split at h
    · rename_i hhigh
      cases h
      simp only [requestBytes, zeroExtend_low_of_high_zero hhigh, hiByte_mkWord, loByte_mkWord]
    · cases h
  · cases h

/-- The instruction of a request is encoded as the request. -/
theorem encode_decodeRequest (r : Request) : encode (decodeRequest r) = requestBytes r := by
  obtain ⟨v, a, p0, p1⟩ := r
  obtain ⟨o, rfl⟩ : ∃ o : Op, o.sel = v := ⟨Op.ofSel v, Op.sel_ofSel v⟩
  cases o <;> rfl

/-- The instruction of a request stands at the request port. -/
theorem portOf_decodeRequest (r : Request) : portOf (decodeRequest r) = .request := by
  unfold decodeRequest
  cases Op.ofSel r.opsel <;> rfl

/-- The bytes of a request decode, at the request port, to its instruction. -/
theorem decode_requestBytes (r : Request) : decode .request (requestBytes r) = .ok (decodeRequest r) := by
  simp [decode, Except.map]

/-- At the request port, bytes that decode are the encoding of what they decode to. -/
theorem encode_of_decode_request {bs : List Byte} {i : Instr} (h : decode .request bs = .ok i) :
    portOf i = .request ∧ encode i = bs := by
  cases hr : requestOfBytes bs with
  | error e => simp [decode, hr, Except.map] at h
  | ok r =>
    obtain rfl : decodeRequest r = i := by simpa [decode, hr, Except.map] using h
    exact ⟨portOf_decodeRequest r, (encode_decodeRequest r).trans (requestBytes_of_requestOfBytes hr)⟩

/-! ### The wire (R50, R56) -/

/-- A two-byte frame is told by its command word. -/
theorem decode_frame0Bytes (c : Word) : decode .wire (frame0Bytes c) = decodeFrame0 c := by
  simp [decode, frame0Bytes, decodeWire]

/-- An eight-byte frame is told by its command word and keeps its operands. -/
theorem decode_frame2Bytes (c h : Word) (x : Byte) (t : Word) (y : Byte) :
    decode .wire (frame2Bytes c h x t y) = decodeFrame2 c h x t y := by
  simp [decode, frame2Bytes, decodeWire]

/-! ### The evaluation port (R59; log entries 8 and 25) -/

/-- The operand bytes of FRAME, at most two payload words, are read back (R82). -/
theorem decodeFramer_frameBytes (c : Word) {pl : List Word} (h : pl.length ≤ 2) :
    decodeFramer (frameBytes c pl) = .ok (.frame c pl) := by
  have hlen : (triplets pl).length = 0 ∨ (triplets pl).length = 3 ∨ (triplets pl).length = 6 := by
    rw [length_triplets]; omega
  have hcount : (triplets pl).length / 3 = pl.length := by rw [length_triplets]; omega
  have hscan : scanTriplets (triplets pl) pl.length = some pl := by
    simpa using scanTriplets_triplets pl []
  show decodeFramer (hiByte c :: loByte c :: triplets pl) = _
  simp only [decodeFramer, if_pos hlen, hcount, hscan, mkWord_hi_lo]

/-- A scan of a buffer that holds no byte beyond its triplets has read the whole buffer. -/
theorem triplets_of_scanTriplets {buf : List Byte} {ws : List Word} (hmod : buf.length % 3 = 0)
    (h : scanTriplets buf (buf.length / 3) = some ws) : triplets ws = buf := by
  obtain ⟨hcount, rest, hbuf⟩ := scanTriplets_some h
  have hlen : buf.length = 3 * ws.length + rest.length := by
    rw [← length_triplets, ← List.length_append, ← hbuf]
  have hrest : rest = [] := List.eq_nil_of_length_eq_zero (by omega)
  rw [hbuf, hrest, List.append_nil]

/-- Bytes read as FRAME's operand are the frame of that command and payload. -/
theorem encode_of_decodeFramer {bs : List Byte} {i : Instr} (h : decodeFramer bs = .ok i) :
    portOf i = .eval .framer ∧ encode i = bs := by
  unfold decodeFramer at h
  split at h
  · rename_i a b rest
    split at h
    · rename_i hlen
      split at h
      · rename_i ws hscan
        cases h
        have hrest : triplets ws = rest := triplets_of_scanTriplets (by omega) hscan
        exact ⟨rfl, by simp [encode, frameBytes, hrest]⟩
      · cases h
    · cases h
  · cases h

/-- A converter operand is the four bytes it is written in, most significant first. -/
theorem append_operandBytes (v : Float32Bits) :
    v.extractLsb' 24 8 ++ v.extractLsb' 16 8 ++ v.extractLsb' 8 8 ++ v.extractLsb' 0 8 = v := by
  rw [BitVec.extractLsb'_append_extractLsb'_eq_extractLsb' (by rfl),
    BitVec.extractLsb'_append_extractLsb'_eq_extractLsb' (by rfl),
    BitVec.extractLsb'_append_extractLsb'_eq_extractLsb' (by rfl), BitVec.extractLsb'_eq_self]

/-- Four bytes are the operand bytes of their concatenation. -/
theorem operandBytes_append (a b c d : Byte) : operandBytes (a ++ b ++ c ++ d) = [a, b, c, d] := by
  have ha : (a ++ b ++ c ++ d).extractLsb' 24 8 = a := by
    rw [BitVec.extractLsb'_append_eq_of_le (by decide), BitVec.extractLsb'_append_eq_of_le (by decide),
      BitVec.extractLsb'_append_eq_left]
  have hb : (a ++ b ++ c ++ d).extractLsb' 16 8 = b := by
    rw [BitVec.extractLsb'_append_eq_of_le (by decide), BitVec.extractLsb'_append_eq_of_le (by decide),
      BitVec.extractLsb'_append_eq_right]
  have hc : (a ++ b ++ c ++ d).extractLsb' 8 8 = c := by
    rw [BitVec.extractLsb'_append_eq_of_le (by decide), BitVec.extractLsb'_append_eq_right]
  have hd : (a ++ b ++ c ++ d).extractLsb' 0 8 = d := BitVec.extractLsb'_append_eq_right
  simp only [operandBytes, ha, hb, hc, hd]

/-- At an evaluation port, bytes that decode are the encoding of what they decode to. -/
theorem encode_of_decodeEval {e : EvalPort} {bs : List Byte} {i : Instr} (h : decodeEval e bs = .ok i) :
    portOf i = .eval e ∧ encode i = bs := by
  cases e with
  | framer => exact encode_of_decodeFramer h
  | parser n => cases h; exact ⟨rfl, rfl⟩
  | crcBit | crcByte =>
    simp only [decodeEval] at h
    split at h <;> cases h
    exact ⟨rfl, rfl⟩
  | crc =>
    simp only [decodeEval] at h
    split at h <;> cases h
    exact ⟨rfl, by simp [encode]⟩
  | humidity | temperature =>
    simp only [decodeEval] at h
    split at h <;> cases h
    exact ⟨rfl, operandBytes_append ..⟩

/-! ### The decoder and the encoder invert each other (R50, R53, R56, R58, R59) -/

/-- Settles O6, by the port of the instruction: the request record, the command words of the wire, and the operands of
the pure functions. -/
theorem decodeInvertsEncode : Obligations.DecodeInvertsEncode := by
  intro i hwf
  cases i with
  | beginOp a p0 p1 => exact decode_requestBytes ⟨Op.beginOp.sel, a, p0, p1⟩
  | endOp a p0 p1 => exact decode_requestBytes ⟨Op.endOp.sel, a, p0, p1⟩
  | getSerial a p0 p1 => exact decode_requestBytes ⟨Op.getSerial.sel, a, p0, p1⟩
  | condition a p0 p1 => exact decode_requestBytes ⟨Op.condition.sel, a, p0, p1⟩
  | measureRaw a p0 p1 => exact decode_requestBytes ⟨Op.measureRaw.sel, a, p0, p1⟩
  | selfTest a p0 p1 => exact decode_requestBytes ⟨Op.selfTest.sel, a, p0, p1⟩
  | heaterOff a p0 p1 => exact decode_requestBytes ⟨Op.heaterOff.sel, a, p0, p1⟩
  | softReset a p0 p1 => exact decode_requestBytes ⟨Op.softReset.sel, a, p0, p1⟩
  | getSerialWire | selfTestWire | heaterOffWire | softResetWire => exact decode_frame0Bytes _
  | conditionWire h x t y | measureRawWire h x t y => exact decode_frame2Bytes _ h x t y
  | crc8Bit | crc8Byte | parse => rfl
  | crc8 w => exact decode_crcPort w
  | frame c pl => exact decodeFramer_frameBytes c ((frameDomain_iff pl).1 hwf)
  | hum2tick v => exact congrArg (fun x => Except.ok (Instr.hum2tick x)) (append_operandBytes v)
  | temp2tick v => exact congrArg (fun x => Except.ok (Instr.temp2tick x)) (append_operandBytes v)

/-- Settles O7, port by port. -/
theorem encodeInvertsDecode : Obligations.EncodeInvertsDecode := by
  intro p bs i h
  cases p with
  | request => exact encode_of_decode_request h
  | wire =>
    obtain ⟨hbytes, hport, _⟩ := decodeWire_cases h
    exact ⟨hport, hbytes⟩
  | eval e => exact encode_of_decodeEval h

/-! ### Words, selectors and pseudo-operations of the spec (R53, R56, R61) -/

/-- Where the bytes of a table word decode at its port, the table word decodes to the same instruction. -/
theorem decodeTableWord_of_decode {nbits w : Nat} {p : Port} {bs : List Byte} {i : Instr}
    (hp : tablePort nbits w = (p, bs)) (hd : decode p bs = .ok i) : decodeTableWord nbits w = some i := by
  simp only [decodeTableWord, hp, hd, Except.toOption]

/-- Settles O5: each of the words is the encoding of its instruction, read back at its port. -/
theorem decodeReadsSpecWords : Obligations.DecodeReadsSpecWords :=
  ⟨decodeTableWord_of_decode rfl (decode_requestBytes ⟨4, 0, 0, 0⟩),
    decodeTableWord_of_decode rfl (decode_frame0Bytes 0x3682#16),
    decodeTableWord_of_decode rfl (decode_frame0Bytes 0x0006#16),
    decodeTableWord_of_decode rfl (decode_frame2Bytes 0x2619#16 0x8000#16 0xA2#8 0x6666#16 0x93#8),
    decode_crcPort 0xBEEF#16, decodeInvertsEncode (.hum2tick 0x42480000#32) (by decide)⟩

/-- Settles O8: the codes as R53 lists them, and the two inverse laws of the selector. -/
theorem everySelectorNamesItsOperation : Obligations.EverySelectorNamesItsOperation :=
  ⟨⟨rfl, rfl, rfl, rfl, rfl, rfl, rfl, rfl⟩, Op.sel_ofSel, Op.ofSel_sel⟩

/-- CONDITION in physical units is requested with the converted ticks. -/
theorem request_conditionPhys {p c : Float32Bits} {h t : Word} (hh : humidityTicks p = some h)
    (ht : temperatureTicks c = some t) :
    (Line.conditionPhys p c).request = some (requestOf .condition 0 h t) := by
  simp only [Line.request, hh, ht]

/-- MEASURE_RAW in physical units is requested with the converted ticks. -/
theorem request_measureRawPhys {p c : Float32Bits} {h t : Word} (hh : humidityTicks p = some h)
    (ht : temperatureTicks c = some t) :
    (Line.measureRawPhys p c).request = some (requestOf .measureRaw 0 h t) := by
  simp only [Line.request, hh, ht]

/-- Settles O9: the three defaults are constants; the two physical lines carry the converter's ticks. -/
theorem pseudoOperationsExpand : Obligations.PseudoOperationsExpand :=
  ⟨rfl, rfl, rfl, fun _ _ _ _ hh ht => ⟨request_conditionPhys hh ht, request_measureRawPhys hh ht⟩⟩

/-! ### The DELAY step (R54, R107) -/

/-- In DELAY the step of the running operation is the DELAY step. -/
theorem runningStep_of_delay {s : State} (hp : s.phase = .delay) : runningStep s = delayStep s := by
  simp only [runningStep, hp]

/-- In DELAY a sleep which returns goes on to READ, or to IDLE where no response is due. -/
theorem delayStep_slept {s : State} {ms m : Nat} (hd : delayMs s.op = some ms) (hz : s.env.sleeps = m + 1) :
    delayStep s = .next (((s.setEnv { s.env with sleeps := m }).log (.slept ms)).setPhase
      (if respWords s.op = 0 then .idle else .read)) := by
  simp only [delayStep, hd, hz]

/-- The delays of the seven operations that sleep; of these HEATER_OFF and SOFT_RESET have no response (R54). -/
theorem delayMs_of_mem {o : Op} {ms : Nat}
    (h : (o, ms) ∈ [(Op.beginOp, 1), (.getSerial, 1), (.condition, 50), (.measureRaw, 50), (.selfTest, 320),
      (.heaterOff, 1), (.softReset, 20)]) :
    delayMs o = some ms ∧ (respWords o = 0 ↔ o = .heaterOff ∨ o = .softReset) := by
  simp only [List.mem_cons, Prod.mk.injEq, List.not_mem_nil, or_false] at h
  obtain ⟨rfl, rfl⟩ | ⟨rfl, rfl⟩ | ⟨rfl, rfl⟩ | ⟨rfl, rfl⟩ | ⟨rfl, rfl⟩ | ⟨rfl, rfl⟩ | ⟨rfl, rfl⟩ := h <;>
    exact ⟨rfl, by decide⟩

/-- Settles O28, by the operation's row of R54. -/
theorem delaySleepsThenReadsOrEnds : Obligations.DelaySleepsThenReadsOrEnds := by
  intro r s ms k hp ho hm hz
  obtain ⟨hd, hresp⟩ := delayMs_of_mem hm
  rw [exec_own_request (by simp [hp]) ho, runningStep_of_delay hp, delayStep_slept hd hz]
  simp only [hresp]
  rfl

end Sys2Proof.Machine
end

section
/-! PROOF. The Checksum Engine (40_checksum.md): its bit step, byte step and word, their linearity over XOR, and the bit
flips of a triplet that the parser cannot miss. -/

namespace Sys2Proof.Machine

/-! ### The three functions and their corner cases (R70 to R72) -/

/-- The bit step tests bit 7 of the register before the shift (R70). -/
theorem crc8Bit_eq (r : Byte) : crc8Bit r = if r.getLsbD 7 = true then (r <<< 1) ^^^ 0x31#8 else r <<< 1 := by
  rw [crc8Bit, BitVec.msb_eq_getLsbD_last]
  rfl

/-- Settles O10: what `exec` answers is `crc8Bit`, and that is R70's shift and XOR. -/
theorem crc8BitShiftsAndXors : Obligations.Crc8BitShiftsAndXors := by
  refine ⟨fun r s => ?_, rfl, rfl, rfl, rfl, rfl⟩
  rw [← crc8Bit_eq]
  rfl

/-- The byte step is eight bit steps from the register with the byte XORed in (R71). -/
theorem crc8Byte_eq_iterate (r b : Byte) : crc8Byte r b = crc8Bit^[8] (r ^^^ b) := rfl

/-- Settles O11: the byte step depends on the XOR of register and byte alone. -/
theorem crc8ByteTakesEightBitSteps : Obligations.Crc8ByteTakesEightBitSteps := by
  refine ⟨fun r b s => ?_, rfl, fun r b => ?_, rfl⟩
  · rw [← crc8Byte_eq_iterate]
    rfl
  · simp only [crc8Byte_eq_iterate, BitVec.xor_zero]

/-- Among the words of two equal bytes only 0x2B2B has that byte as its checksum (R72). -/
theorem checksum_mkWord_self_iff : ∀ b : Byte, checksum (mkWord b b) = b ↔ b = 0x2B#8 := by decide +kernel

/-- Settles O12: the checksum port is `checksum`, which is the two byte steps by definition. -/
theorem crc8TakesHighByteFirst : Obligations.Crc8TakesHighByteFirst :=
  ⟨fun _ _ => rfl, by decide +kernel, by decide +kernel, by decide +kernel, by decide +kernel,
    checksum_mkWord_self_iff⟩

/-! ### Linearity over XOR (R75 item 1) -/

/-- The bit step is linear: the XOR with the polynomial happens on one side, on both, where it cancels, or on none. -/
theorem crc8Bit_xor (r q : Byte) : crc8Bit (r ^^^ q) = crc8Bit r ^^^ crc8Bit q := by
  unfold crc8Bit
  rw [BitVec.msb_xor, BitVec.shiftLeft_xor_distrib]
  match r.msb, q.msb with
  | false, false => rfl
  | false, true => exact BitVec.xor_assoc ..
  | true, false =>
    show r <<< 1 ^^^ q <<< 1 ^^^ crcPoly = (r <<< 1 ^^^ crcPoly) ^^^ q <<< 1
    ac_rfl
  | true, true =>
    show r <<< 1 ^^^ q <<< 1 = (r <<< 1 ^^^ crcPoly) ^^^ (q <<< 1 ^^^ crcPoly)
    calc r <<< 1 ^^^ q <<< 1
        = r <<< 1 ^^^ q <<< 1 ^^^ (crcPoly ^^^ crcPoly) := by rw [BitVec.xor_self, BitVec.xor_zero]
      _ = (r <<< 1 ^^^ crcPoly) ^^^ (q <<< 1 ^^^ crcPoly) := by ac_rfl

/-- The byte step is linear in the register and the byte together. -/
theorem crc8Byte_xor (r q b c : Byte) : crc8Byte (r ^^^ q) (b ^^^ c) = crc8Byte r b ^^^ crc8Byte q c := by
  have hcomm : r ^^^ q ^^^ (b ^^^ c) = (r ^^^ b) ^^^ (q ^^^ c) := by ac_rfl
  simp only [crc8Byte, hcomm, crc8Bit_xor]

theorem hiByte_xor (a b : Word) : hiByte (a ^^^ b) = hiByte a ^^^ hiByte b := BitVec.extractLsb'_xor

theorem loByte_xor (a b : Word) : loByte (a ^^^ b) = loByte a ^^^ loByte b := BitVec.extractLsb'_xor

/-- In an XOR of three words the initial values leave one, as an XOR of three equal values does. -/
theorem checksum_xor_xor (a b c : Word) :
    checksum (a ^^^ b ^^^ c) = checksum a ^^^ checksum b ^^^ checksum c := by
  have hinit : crcInit = crcInit ^^^ crcInit ^^^ crcInit := rfl
  calc checksum (a ^^^ b ^^^ c)
      = crc8Byte (crc8Byte (crcInit ^^^ crcInit ^^^ crcInit) (hiByte a ^^^ hiByte b ^^^ hiByte c))
          (loByte a ^^^ loByte b ^^^ loByte c) := by rw [← hinit, checksum]; simp only [hiByte_xor, loByte_xor]
    _ = checksum a ^^^ checksum b ^^^ checksum c := by simp only [crc8Byte_xor, checksum]

/-- Settles O13: the XOR of three words with the third one zero. -/
theorem checksumIsXorAffine : Obligations.ChecksumIsXorAffine := by
  intro a b
  rw [← checksum_xor_xor, BitVec.xor_zero]

/-! ### The syndrome of an error in a triplet (R75 items 2 and 4, R95 item 3) -/

/-- The three bytes of a triplet read as 24 bits, bit 23 first (R75 item 4). -/
def bytesOfBits (v : BitVec 24) : List Byte := [v.extractLsb' 16 8, v.extractLsb' 8 8, v.extractLsb' 0 8]

/-- The parser fails on one triplet exactly when the checksum byte is not the word's. -/
theorem parseBytes_one_badCrc_iff (hi lo crc : Byte) :
    parseBytes [hi, lo, crc] 1 = .badCrc ↔ checksum (mkWord hi lo) ≠ crc := by
  have hdom : parseDomain [hi, lo, crc] 1 = true := rfl
  rw [parseBytes, if_pos hdom, scanTriplets_cons, scanTriplets_zero]
  split <;> simp_all

/-- The same for the triplet as 24 bits. -/
theorem parseBytes_bytesOfBits_badCrc_iff (v : BitVec 24) :
    parseBytes (bytesOfBits v) 1 = .badCrc ↔ checksum (v.extractLsb' 8 16) ≠ v.extractLsb' 0 8 := by
  have hword : mkWord (v.extractLsb' 16 8) (v.extractLsb' 8 8) = v.extractLsb' 8 16 :=
    BitVec.extractLsb'_append_extractLsb'_eq_extractLsb' rfl
  rw [bytesOfBits, parseBytes_one_badCrc_iff, hword]

/-- What an error `e`, XORed to the 24 bits of a valid triplet, leaves between the checksum recomputed from the word and
the checksum byte received. -/
def syndrome (e : BitVec 24) : Byte := checksum (e.extractLsb' 8 16) ^^^ e.extractLsb' 0 8 ^^^ checksum 0#16

/-- The parser fails on a valid triplet with an error exactly when the error's syndrome is not zero. -/
theorem parseBytes_corrupted_badCrc_iff (w : Word) (e : BitVec 24) :
    parseBytes (bytesOfBits ((w ++ checksum w) ^^^ e)) 1 = .badCrc ↔ syndrome e ≠ 0#8 := by
  have hw : (w ++ checksum w).extractLsb' 8 16 = w := BitVec.extractLsb'_append_eq_left
  have hc : (w ++ checksum w).extractLsb' 0 8 = checksum w := BitVec.extractLsb'_append_eq_right
  rw [parseBytes_bytesOfBits_badCrc_iff, BitVec.extractLsb'_xor, BitVec.extractLsb'_xor, hw, hc, checksumIsXorAffine,
    ne_eq, ne_eq, ← BitVec.xor_eq_zero_iff, syndrome]
  generalize checksum (e.extractLsb' 8 16) = x, e.extractLsb' 0 8 = y, checksum w = z, checksum 0#16 = u
  have hcancel : z ^^^ x ^^^ u ^^^ (z ^^^ y) = x ^^^ y ^^^ u :=
    calc z ^^^ x ^^^ u ^^^ (z ^^^ y) = (z ^^^ z) ^^^ (x ^^^ y ^^^ u) := by ac_rfl
      _ = x ^^^ y ^^^ u := by rw [BitVec.xor_self, BitVec.zero_xor]
  rw [hcancel]

/-- The syndrome is linear. -/
theorem syndrome_xor (e f : BitVec 24) : syndrome (e ^^^ f) = syndrome e ^^^ syndrome f := by
  rw [syndrome, BitVec.extractLsb'_xor, BitVec.extractLsb'_xor, checksumIsXorAffine, syndrome, syndrome]
  generalize checksum (e.extractLsb' 8 16) = a, checksum (f.extractLsb' 8 16) = b, checksum 0#16 = c
  ac_rfl

/-- A triplet received as sent has syndrome zero. -/
theorem syndrome_zero : syndrome 0#24 = 0#8 := by decide +kernel

/-- The syndrome of one flipped bit. -/
def bitSyndrome (p : Fin 24) : Byte := syndrome (1#24 <<< p.val)

/-- The syndrome of some flipped bits is the XOR of their syndromes. -/
theorem syndrome_flips (ps : List (Fin 24)) :
    syndrome (ps.foldl (fun a p => a ^^^ (1#24 <<< p.val)) 0#24) =
      ps.foldl (fun a p => a ^^^ bitSyndrome p) 0#8 := by
  rw [← syndrome_zero]
  exact (List.foldl_hom syndrome fun a p => (syndrome_xor a _).symm).symm

/-- Whether a byte has an odd number of ones. -/
def oddOnes (b : Byte) : Bool :=
  b.getLsbD 0 ^^ b.getLsbD 1 ^^ b.getLsbD 2 ^^ b.getLsbD 3 ^^ b.getLsbD 4 ^^ b.getLsbD 5 ^^ b.getLsbD 6 ^^ b.getLsbD 7

theorem oddOnes_xor (b c : Byte) : oddOnes (b ^^^ c) = (oddOnes b ^^ oddOnes c) := by
  simp only [oddOnes, BitVec.getLsbD_xor]
  have hcomm : Std.Commutative Bool.xor := ⟨Bool.xor_comm⟩
  ac_rfl

/-- Each of the 24 bits has a syndrome of odd weight, as the polynomial has an even number of terms (R73). -/
theorem oddOnes_bitSyndrome : ∀ p, oddOnes (bitSyndrome p) = true := by decide +kernel

/-- Two different flipped bits have different syndromes. -/
theorem bitSyndrome_injective : Function.Injective bitSyndrome := by
  unfold Function.Injective
  decide +kernel

/-- One or three flips have a syndrome of odd weight, and two flips have two different syndromes. -/
theorem syndrome_flips_ne_zero {ps : List (Fin 24)} (hn : ps.Nodup) (h1 : 1 ≤ ps.length) (h3 : ps.length ≤ 3) :
    syndrome (ps.foldl (fun a p => a ^^^ (1#24 <<< p.val)) 0#24) ≠ 0#8 := by
  rw [syndrome_flips]
  match ps with
  | [p] =>
    intro h0
    have hodd : oddOnes (0#8 ^^^ bitSyndrome p) = false := congrArg oddOnes h0
    simp [oddOnes_bitSyndrome] at hodd
  | [p, q] =>
    intro h0
    have hne : p ≠ q := by simpa using hn
    have heq : bitSyndrome p = bitSyndrome q := by simpa [BitVec.xor_eq_zero_iff] using h0
    exact hne (bitSyndrome_injective heq)
  | [p, q, r] =>
    intro h0
    have hodd : oddOnes (0#8 ^^^ bitSyndrome p ^^^ bitSyndrome q ^^^ bitSyndrome r) = false := congrArg oddOnes h0
    simp [oddOnes_xor, oddOnes_bitSyndrome] at hodd

/-- Settles O14: by the syndrome of the flips; the four flips unseen are those of R75 item 4. -/
theorem parserDetectsUpToThreeFlips : Obligations.ParserDetectsUpToThreeFlips := by
  refine ⟨fun w ps hn h1 h3 => ?_, by decide +kernel, by decide +kernel⟩
  exact (parseBytes_corrupted_badCrc_iff w _).2 (syndrome_flips_ne_zero hn h1 h3)

end Sys2Proof.Machine
end

section
/-! PROOF. The Command Framer (41_framer.md): the layout of a frame and the payloads refused, its length, and the way back
from a frame to its command and payload. -/

namespace Sys2Proof.Machine

/-! ### Layout and domain (R80, R82) -/

/-- Inside its contract FRAME answers the frame at the evaluation port. -/
theorem exec_frame_of_length_le (c : Word) {pl : List Word} (s : State) (h : pl.length ≤ 2) :
    exec (.frame c pl) s = .next (s.answer (.bytes (frameBytes c pl))) :=
  if_pos ((frameDomain_iff pl).2 h)

/-- Outside its contract FRAME is refused (R82). -/
theorem exec_frame_of_two_lt_length (c : Word) {pl : List Word} (s : State) (h : 2 < pl.length) :
    exec (.frame c pl) s = .refused .payloadTooLong :=
  if_neg fun hd => Nat.not_le.2 h ((frameDomain_iff pl).1 hd)

/-- The one-word frame, byte by byte. -/
theorem frameBytes_one (c a : Word) : frameBytes c [a] = [hiByte c, loByte c, hiByte a, loByte a, checksum a] := rfl

/-- Settles O15: one clause per payload length the contract admits, then the refusal and R80's worked example. -/
theorem frameLayoutAndDomain : Obligations.FrameLayoutAndDomain := by
  refine ⟨fun c s => ?_, fun c a s => ?_, fun c a b s => ?_, fun c _ s => exec_frame_of_two_lt_length c s, ?_⟩
  · rw [exec_frame_of_length_le c s (by simp), frameBytes_nil, State.answer]
  · rw [exec_frame_of_length_le c s (by simp), frameBytes_one, State.answer]
  · rw [exec_frame_of_length_le c s (by simp), frameBytes_two, State.answer]
  · decide +kernel

/-! ### The length law (R81) -/

/-- TXBUF has room for the longest frame: eight bytes from reset. -/
theorem length_txbuf_reset : State.reset.txbuf.length = 8 := rfl

/-- Settles O16: the length is `2 + 3k`, so at `k ≤ 2` it is 2, 5 or 8. -/
theorem frameLengthLaw : Obligations.FrameLengthLaw := by
  intro c pl
  rw [length_frameBytes, length_txbuf_reset]
  exact ⟨rfl, fun h => by omega⟩

/-! ### From a frame back to its command and payload (R84) -/

/-- What stands behind the command of a frame is the payload's triplets. -/
theorem drop_two_frameBytes (c : Word) (pl : List Word) : (frameBytes c pl).drop 2 = triplets pl := rfl

/-- The triplets determine the words, because the scan of the parser reads them back. -/
theorem triplets_injective : Function.Injective triplets := by
  intro ws vs h
  have hlen : ws.length = vs.length := by simpa using congrArg List.length h
  have hscan : scanTriplets (triplets ws ++ []) ws.length = some ws := scanTriplets_triplets ws []
  rw [h, hlen, scanTriplets_triplets] at hscan
  exact (Option.some.inj hscan).symm

/-- A word is determined by its high byte and its low byte. -/
theorem eq_of_hiByte_loByte {v w : Word} (hhi : hiByte v = hiByte w) (hlo : loByte v = loByte w) : v = w :=
  calc v = mkWord (hiByte v) (loByte v) := (mkWord_hi_lo v).symm
    _ = mkWord (hiByte w) (loByte w) := by rw [hhi, hlo]
    _ = w := mkWord_hi_lo w

/-- A frame determines its command and its payload, whatever the number of payload words. -/
theorem frameBytes_inj {c c' : Word} {pl pl' : List Word} (h : frameBytes c pl = frameBytes c' pl') :
    c = c' ∧ pl = pl' := by
  obtain ⟨hhi, htail⟩ := List.cons.inj h
  obtain ⟨hlo, htriplets⟩ := List.cons.inj htail
  exact ⟨eq_of_hiByte_loByte hhi hlo, triplets_injective htriplets⟩

/-- Settles O17: behind the command stand the payload's triplets, which the parser reads back, and a frame determines
its parts. -/
theorem frameParseRoundTrip : Obligations.FrameParseRoundTrip := by
  refine ⟨fun c pl h => ?_, fun _ _ _ _ _ => frameBytes_inj⟩
  rw [drop_two_frameBytes]
  have hparse : parseBytes (triplets pl ++ []) pl.length = .ok pl := parseBytes_triplets pl [] (by omega)
  rw [List.append_nil] at hparse
  exact ⟨length_triplets pl, hparse⟩

end Sys2Proof.Machine
end

section
/-! PROOF. The Response Parser (42_parser.md): exactly when it answers words, fails and is refused, what PARSE makes of
each, and the words of a successful parse byte by byte. -/

namespace Sys2Proof.Machine

/-! ### The three answers (R90, R91, R93) -/

/-- The parser answers exactly the words whose triplets stand at the front of the buffer. -/
theorem parseBytes_eq_ok_iff {buf : List Byte} {n : Nat} {ws : List Word} :
    parseBytes buf n = .ok ws ↔ n ≤ 3 ∧ ws.length = n ∧ ∃ rest, buf = triplets ws ++ rest := by
  constructor
  · intro h
    obtain ⟨hd, vs, hs, hv⟩ | ⟨_, _, hv⟩ | ⟨_, hv⟩ := parseBytes_cases buf n
    · obtain rfl : vs = ws := ParseResult.ok.inj (hv.symm.trans h)
      exact ⟨((parseDomain_iff buf n).1 hd).1, scanTriplets_some hs⟩
    · rw [hv] at h; cases h
    · rw [hv] at h; cases h
  · rintro ⟨hn, rfl, rest, rfl⟩
    exact parseBytes_triplets ws rest hn

/-- Inside the contract the parser fails where no words have their triplets at the front of the buffer. -/
theorem parseBytes_eq_badCrc {buf : List Byte} {n : Nat} (hn : n ≤ 3) (hl : 3 * n ≤ buf.length)
    (h : ∀ ws : List Word, ws.length = n → ∀ rest, buf ≠ triplets ws ++ rest) : parseBytes buf n = .badCrc := by
  obtain ⟨_, ws, hs, _⟩ | ⟨_, _, hv⟩ | ⟨hd, _⟩ := parseBytes_cases buf n
  · obtain ⟨hlen, rest, hbuf⟩ := scanTriplets_some hs
    exact absurd hbuf (h ws hlen rest)
  · exact hv
  · rw [(parseDomain_iff buf n).2 ⟨hn, hl⟩] at hd; cases hd

/-- Outside the contract the parser has no result. -/
theorem parseBytes_eq_outside {buf : List Byte} {n : Nat} (h : ¬(n ≤ 3 ∧ 3 * n ≤ buf.length)) :
    parseBytes buf n = .outside :=
  if_neg fun hd => h ((parseDomain_iff buf n).1 hd)

/-- The empty response is a success on every buffer (R92). -/
theorem parseBytes_zero (buf : List Byte) : parseBytes buf 0 = .ok [] := parseBytes_triplets [] buf (by simp)

/-! ### What PARSE answers -/

theorem exec_parse (buf : List Byte) (n : Nat) (s : State) : exec (.parse buf n) s = execParse buf n s := rfl

theorem exec_parse_of_ok {buf : List Byte} {n : Nat} {ws : List Word} (s : State) (h : parseBytes buf n = .ok ws) :
    exec (.parse buf n) s = .next (s.answer (.words ws)) := by
  rw [exec_parse, execParse, h]

theorem exec_parse_of_badCrc {buf : List Byte} {n : Nat} (s : State) (h : parseBytes buf n = .badCrc) :
    exec (.parse buf n) s = .next (s.answer .crcFail) := by
  rw [exec_parse, execParse, h]

theorem exec_parse_of_outside {buf : List Byte} {n : Nat} (s : State) (h : parseBytes buf n = .outside) :
    exec (.parse buf n) s = .refused .parseOutside := by
  rw [exec_parse, execParse, h]

/-- Settles O18: one clause per answer of the parser, and the empty response. -/
theorem parseAnswersWordsOrFails : Obligations.ParseAnswersWordsOrFails :=
  ⟨fun ws rest s h => exec_parse_of_ok s (parseBytes_triplets ws rest h),
    fun _ _ s hn hl h => exec_parse_of_badCrc s (parseBytes_eq_badCrc hn hl h),
    fun buf s => exec_parse_of_ok s (parseBytes_zero buf),
    fun _ _ s h => exec_parse_of_outside s (parseBytes_eq_outside h)⟩

/-! ### Byte by byte (R95 item 1) -/

/-- Triplet `i` of the buffer is that of the word `w`: its two bytes, high byte first, and its checksum. -/
def TripletAt (buf : List Byte) (i : Nat) (w : Word) : Prop :=
  buf[3 * i]? = some (hiByte w) ∧ buf[3 * i + 1]? = some (loByte w) ∧ buf[3 * i + 2]? = some (checksum w)

/-- The first triplet is the first three bytes. -/
theorem tripletAt_zero_iff {buf : List Byte} {w : Word} :
    TripletAt buf 0 w ↔ ∃ tl, buf = hiByte w :: loByte w :: checksum w :: tl := by
  constructor
  · rintro ⟨h0, h1, h2⟩
    match buf, h0, h1, h2 with
    | hi :: lo :: crc :: tl, h0, h1, h2 =>
      cases h0; cases h1; cases h2
      exact ⟨tl, rfl⟩
  · rintro ⟨tl, rfl⟩
    exact ⟨rfl, rfl, rfl⟩

/-- Behind one triplet stands the next one. -/
theorem tripletAt_succ (a b c : Byte) (tl : List Byte) (i : Nat) (w : Word) :
    TripletAt (a :: b :: c :: tl) (i + 1) w ↔ TripletAt tl i w := Iff.rfl

/-- A buffer begins with the triplets of some words exactly when it has the triplet of each in its place. -/
theorem eq_triplets_append_iff {buf : List Byte} {ws : List Word} :
    (∃ rest, buf = triplets ws ++ rest) ↔ ∀ i w, ws[i]? = some w → TripletAt buf i w := by
  induction ws generalizing buf with
  | nil => simp
  | cons v vs ih =>
    constructor
    · rintro ⟨rest, rfl⟩ i w hw
      cases i with
      | zero =>
        cases hw
        exact tripletAt_zero_iff.2 ⟨triplets vs ++ rest, rfl⟩
      | succ i => exact (tripletAt_succ ..).2 (ih.1 ⟨rest, rfl⟩ i w hw)
    · intro h
      obtain ⟨tl, rfl⟩ := tripletAt_zero_iff.1 (h 0 v rfl)
      obtain ⟨rest, rfl⟩ := ih.2 fun i w hw => (tripletAt_succ ..).1 (h (i + 1) w hw)
      exact ⟨rest, rfl⟩

/-- Settles O19: the words read are those whose triplets the buffer begins with, which is a matter of each triplet. -/
theorem parseIsExact : Obligations.ParseIsExact := by
  intro buf n ws hn _
  calc parseBytes buf n = .ok ws
      ↔ ws.length = n ∧ ∃ rest, buf = triplets ws ++ rest := by rw [parseBytes_eq_ok_iff, and_iff_right hn]
    _ ↔ ws.length = n ∧ ∀ i w, ws[i]? = some w → TripletAt buf i w := by rw [eq_triplets_append_iff]
    _ ↔ ws.length = n ∧ ∀ i < n, ∀ w, ws[i]? = some w → TripletAt buf i w := by
      refine and_congr_right fun hlen => ⟨fun h i _ => h i, fun h i w hw => h i ?_ w hw⟩
      exact hlen ▸ (List.getElem?_eq_some_iff.1 hw).1

end Sys2Proof.Machine
end

section
/-! PROOF. The sequencer (43_sequencer.md): its steps one by one, what an accept writes and what it reads, and whole
operations that go well. -/

namespace Sys2Proof.Machine

/-! ### The steps of a running operation (R104, R105, R109, R110, R112) -/

/-- Settles O25: the release returns. -/
theorem relOldReleasesTheBinding : Obligations.RelOldReleasesTheBinding := by
  intro r s k hp ho hm
  rw [exec_own_request (by simp [hp]) ho, runningStep_of_relOld hp, relOldStep_released hm]
  rfl

/-- While BEGIN runs, BEGIN means the step of PHASE. -/
theorem exec_beginOp_running {s : State} (a : Addr) (p0 p1 : Word) (hp : s.phase ≠ .idle) (ho : s.op = .beginOp) :
    exec (.beginOp a p0 p1) s = runningStep s :=
  exec_own_request (r := ⟨Op.beginOp.sel, a, p0, p1⟩) hp ho.symm

/-- A failure without a binding ends the operation. -/
theorem raiseFail_unbound {s : State} (c : Status) (hb : s.bound = false) :
    s.raiseFail c = { s with status := c, phase := .idle } := by
  simp [State.raiseFail, hb]

/-- The frame of the get-serial-number command is its two bytes (R56, R105). -/
theorem frameBytes_getSerial : frameBytes 0x3682#16 [] = [0x36#8, 0x82#8] := rfl

/-- Settles O26, by the answer of `T.open`. -/
theorem openBindsAndFramesOrFails : Obligations.OpenBindsAndFramesOrFails := by
  intro a p0 p1 s rest hp ho hb
  rw [exec_beginOp_running a p0 p1 (by simp [hp]) ho, runningStep_of_opening hp]
  constructor
  · intro h ha
    rw [openStep_handle ha]
    simp [State.setPhase, State.loadTx, State.bind, State.log, State.setEnv, overwrite, frameBytes_getSerial]
  · intro ha
    rw [openStep_fail ha, raiseFail_unbound _ (by simpa using hb)]
    rfl

/-- In CHECK a response that no identity check rejects is loaded. -/
theorem checkStep_loaded {s : State} {vs : List Word} (hv : parseBytes s.rxFrame (respWords s.op) = .ok vs)
    (hi : ¬(s.op = .beginOp ∧ identBad vs = true)) :
    checkStep s = .next ((s.loadWords vs (respWords s.op)).setPhase .idle) := by
  simp only [checkStep, hv, if_neg hi]

/-- Settles O30, by the answer of the parser and of the identity check. -/
theorem checkLoadsAllWordsOrNone : Obligations.CheckLoadsAllWordsOrNone := by
  intro r s hp ho
  rw [exec_own_request (by simp [hp]) ho, runningStep_of_check hp]
  refine ⟨fun hv => checkStep_badCrc hv, fun ws hv hbegin hi => ?_, fun ws hv hi => ?_⟩
  · rw [checkStep_identBad hv hbegin hi]
    simp [State.raiseFail, hbegin]
  · rw [checkStep_loaded hv fun h => by simp [hi h.1] at h]
    simp [State.loadWords, State.setPhase]

/-- Settles O31: the three words are equal, and one of them is 0x0000 or 0xFFFF. -/
theorem identityRejectsExactlyTwoTriples : Obligations.IdentityRejectsExactlyTwoTriples := by
  intro a b c
  simp only [identBad, Bool.and_eq_true, Bool.or_eq_true, beq_iff_eq]
  constructor
  · rintro ⟨⟨rfl, rfl⟩, rfl | rfl⟩
    · exact .inl ⟨rfl, rfl, rfl⟩
    · exact .inr ⟨rfl, rfl, rfl⟩
  · rintro (⟨rfl, rfl, rfl⟩ | ⟨rfl, rfl, rfl⟩)
    · exact ⟨⟨rfl, rfl⟩, .inl rfl⟩
    · exact ⟨⟨rfl, rfl⟩, .inr rfl⟩

/-- Settles O32: the release returns, STATUS is not written. -/
theorem relFailReleasesAndKeepsTheCode : Obligations.RelFailReleasesAndKeepsTheCode := by
  intro a p0 p1 s k hp ho hm
  rw [exec_beginOp_running a p0 p1 (by simp [hp]) ho, runningStep_of_relFail hp, relFailStep_released hm]
  rfl

/-! ### The accept step (R101, R103) -/

/-- In IDLE every request is accepted. -/
theorem exec_request_idle (r : Request) {s : State} (hp : s.phase = .idle) :
    exec (decodeRequest r) s = .next (accepted (Op.ofSel r.opsel) r.addr r.p0 r.p1 s) := by
  rw [exec_decodeRequest, operation, if_pos hp]

/-- On an unbound block a chip operation ends in its accept, with E_NOT_READY (R160). -/
theorem acceptChip_unbound {s : State} (o : Op) (p0 p1 : Word) (hb : s.bound = false) :
    acceptChip o p0 p1 s = ((s.latch o p0 p1).setStatus .eNotReady).setPhase .idle := by
  simp [acceptChip, hb]

/-- The accept of a chip operation, field by field. -/
theorem acceptChip_eq {s : State} (o : Op) (p0 p1 : Word) (hp : s.phase = .idle) :
    acceptChip o p0 p1 s =
      (let base : State :=
        { s with op := o, p0 := p0, p1 := p1, status := .ok, nwords := 0, w0 := 0, w1 := 0, w2 := 0, req := none }
      if s.bound = true then
        { base with
          txbuf := opFrame o p0 p1 ++ s.txbuf.drop (opFrame o p0 p1).length,
          txlen := BitVec.ofNat 4 (opFrame o p0 p1).length, phase := .write }
      else { base with status := .eNotReady }) := by
  cases hb : s.bound with
  | true =>
    rw [acceptChip_bound _ _ _ hb]
    simp [State.setPhase, State.loadTx, State.latch, overwrite, hb]
  | false =>
    rw [acceptChip_unbound _ _ _ hb]
    simp [State.setPhase, State.setStatus, State.latch, hp, hb]

/-- Settles O22, by the operation requested. -/
theorem acceptLatchesAndSelectsThePhase : Obligations.AcceptLatchesAndSelectsThePhase := by
  intro r s hp
  rw [exec_request_idle r hp]
  cases Op.ofSel r.opsel with
  | beginOp | endOp => rfl
  | getSerial | condition | measureRaw | selfTest | heaterOff | softReset =>
    exact congrArg _ (acceptChip_eq _ r.p0 r.p1 hp)

/-- PHASE after the accept of an operation, by BOUND (R101). -/
def acceptPhase (o : Op) (b : Bool) : Phase :=
  match o, b with
  | .beginOp, true | .endOp, true => .relOld
  | .beginOp, false => .opening
  | _, true => .write
  | _, false => .idle

/-- STATUS after the accept of an operation, by BOUND (R101). -/
def acceptStatus (o : Op) (b : Bool) : Status := if needsBound o && !b then .eNotReady else .ok

/-- What an accept writes, said with the request and BOUND alone, and what it leaves as it is (R101, R103). -/
structure AcceptWrites (o : Op) (a : Addr) (p0 p1 : Word) (s t : State) : Prop where
  phase : t.phase = acceptPhase o s.bound
  status : t.status = acceptStatus o s.bound
  latched : t.op = o ∧ t.p0 = p0 ∧ t.p1 = p1 ∧ t.req = none
  noWords : t.nwords = 0 ∧ t.w0 = 0 ∧ t.w1 = 0 ∧ t.w2 = 0
  addr : t.addr = if o = .beginOp then a else s.addr
  tx : t.phase = .write → t.txFrame = opFrame o p0 p1 ∧ t.txlen = BitVec.ofNat 4 (opFrame o p0 p1).length
  txKept : t.phase ≠ .write → t.txbuf = s.txbuf ∧ t.txlen = s.txlen
  binding : t.bound = s.bound ∧ t.hnd = s.hnd
  rx : t.rxbuf = s.rxbuf ∧ t.rxlen = s.rxlen
  calls : t.trace = s.trace ∧ t.env = s.env

theorem acceptWrites_acceptBegin (a : Addr) (p0 p1 : Word) (s : State) :
    AcceptWrites .beginOp a p0 p1 s (acceptBegin a p0 p1 s) := by
  constructor <;> cases hb : s.bound <;> simp [acceptBegin, hb, acceptPhase, acceptStatus, needsBound]

theorem acceptWrites_acceptEnd (a : Addr) (p0 p1 : Word) (s : State) :
    AcceptWrites .endOp a p0 p1 s (acceptEnd p0 p1 s) := by
  constructor <;> cases hb : s.bound <;> simp [acceptEnd, hb, acceptPhase, acceptStatus, needsBound]

/-- On a bound block every operation that needs the binding goes to WRITE, on an unbound block none does (R101). -/
theorem acceptPhase_of_needsBound {o : Op} (h : needsBound o = true) (b : Bool) :
    acceptPhase o b = if b then .write else .idle := by
  cases o with
  | beginOp | endOp => cases h
  | getSerial | condition | measureRaw | selfTest | heaterOff | softReset => cases b <;> rfl

theorem acceptWrites_acceptChip {o : Op} (a : Addr) (p0 p1 : Word) (s : State) (hc : needsBound o = true) :
    AcceptWrites o a p0 p1 s (acceptChip o p0 p1 s) := by
  have hphase := acceptPhase_of_needsBound hc
  have hnb := ne_beginOp_of_needsBound hc
  cases hb : s.bound with
  | true =>
    rw [acceptChip_bound _ _ _ hb]
    constructor
    case tx => exact fun _ => ⟨txFrame_accept .., by simp⟩
    all_goals simp [hb, hphase, hnb, acceptStatus]
  | false =>
    rw [acceptChip_unbound _ _ _ hb]
    constructor <;> simp [hb, hphase, hnb, hc, acceptStatus]

/-- Every accept writes what R101 says and nothing else. -/
theorem acceptWrites_accepted (o : Op) (a : Addr) (p0 p1 : Word) (s : State) :
    AcceptWrites o a p0 p1 s (accepted o a p0 p1 s) := by
  cases o with
  | beginOp => exact acceptWrites_acceptBegin a p0 p1 s
  | endOp => exact acceptWrites_acceptEnd a p0 p1 s
  | getSerial | condition | measureRaw | selfTest | heaterOff | softReset => exact acceptWrites_acceptChip a p0 p1 s rfl

/-- BEGIN is the operation of selector 0 (R53). -/
theorem ofSel_eq_beginOp_iff (v : BitVec 3) : Op.ofSel v = .beginOp ↔ v = 0 := by
  revert v
  decide

/-- Settles O24: what the accept writes in either state is said with the request and BOUND. -/
theorem acceptExaminesOnlyBound : Obligations.AcceptExaminesOnlyBound := by
  intro r s s' hp hp' hb
  refine ⟨_, _, exec_request_idle r hp, exec_request_idle r hp', ?_⟩
  have h := acceptWrites_accepted (Op.ofSel r.opsel) r.addr r.p0 r.p1 s
  have h' := acceptWrites_accepted (Op.ofSel r.opsel) r.addr r.p0 r.p1 s'
  have hphase := h'.phase
  rw [← hb, ← h.phase] at hphase
  refine ⟨hphase.symm, by rw [h.status, h'.status, hb], ?_⟩
  simp only [h.latched, h'.latched, h.noWords, h'.noWords, h.addr, h'.addr, h.binding, h'.binding, h.rx, h'.rx,
    h.calls, h'.calls, ofSel_eq_beginOp_iff, hb, true_and, and_true]
  refine ⟨fun h0 => ⟨if_pos h0, if_pos h0⟩, fun h0 => ⟨if_neg h0, if_neg h0⟩, fun hw => ?_, fun hw => ?_⟩
  · rw [(h.tx hw).1, (h.tx hw).2, (h'.tx (hphase.trans hw)).1, (h'.tx (hphase.trans hw)).2]
    exact ⟨rfl, rfl⟩
  · have hw' := hphase ▸ hw
    exact ⟨(h.txKept hw).1, (h.txKept hw).2, h'.txKept hw'⟩

/-! ### The request port while an operation runs (R102) -/

/-- The state with something else at the request port. -/
def State.withReq (s : State) (q : Option Request) : State := { s with req := q }

section
variable (s : State) (q : Option Request)

/-! What a step reads is not the request port. -/

@[simp] theorem State.withReq_phase : (s.withReq q).phase = s.phase := rfl
@[simp] theorem State.withReq_op : (s.withReq q).op = s.op := rfl
@[simp] theorem State.withReq_addr : (s.withReq q).addr = s.addr := rfl
@[simp] theorem State.withReq_hnd : (s.withReq q).hnd = s.hnd := rfl
@[simp] theorem State.withReq_env : (s.withReq q).env = s.env := rfl
@[simp] theorem State.withReq_txFrame : (s.withReq q).txFrame = s.txFrame := rfl
@[simp] theorem State.withReq_rxFrame : (s.withReq q).rxFrame = s.rxFrame := rfl

/-! What a step writes is not the request port either. -/

@[simp] theorem State.withReq_log (e : Event) : (s.withReq q).log e = (s.log e).withReq q := rfl
@[simp] theorem State.withReq_setPhase (p : Phase) : (s.withReq q).setPhase p = (s.setPhase p).withReq q := rfl
@[simp] theorem State.withReq_setEnv (e : Env) : (s.withReq q).setEnv e = (s.setEnv e).withReq q := rfl
@[simp] theorem State.withReq_bind (h : Handle) : (s.withReq q).bind h = (s.bind h).withReq q := rfl
@[simp] theorem State.withReq_unbind : (s.withReq q).unbind = s.unbind.withReq q := rfl
@[simp] theorem State.withReq_loadTx (f : List Byte) : (s.withReq q).loadTx f = (s.loadTx f).withReq q := rfl
@[simp] theorem State.withReq_loadRx (f : List Byte) : (s.withReq q).loadRx f = (s.loadRx f).withReq q := rfl
@[simp] theorem State.withReq_loadWords (ws : List Word) (n : Nat) :
    (s.withReq q).loadWords ws n = (s.loadWords ws n).withReq q := rfl
@[simp] theorem State.withReq_raiseFail (c : Status) : (s.withReq q).raiseFail c = (s.raiseFail c).withReq q := rfl

end

section
variable {s t : State} (q : Option Request)

theorem relOldStep_withReq (h : relOldStep s = .next t) : relOldStep (s.withReq q) = .next (t.withReq q) := by
  obtain ⟨he, rfl⟩ | ⟨k, he, rfl⟩ := relOldStep_cases h
  · simp [relOldStep, he]
  · by_cases ho : s.op = .beginOp <;> simp [relOldStep, he, ho]

theorem openStep_withReq (h : openStep s = .next t) : openStep (s.withReq q) = .next (t.withReq q) := by
  obtain ⟨he, rfl⟩ | ⟨hd, rest, he, rfl⟩ | ⟨rest, he, rfl⟩ := openStep_cases h <;> simp [openStep, he]

theorem writeStep_withReq (h : writeStep s = .next t) : writeStep (s.withReq q) = .next (t.withReq q) := by
  unfold writeStep at h ⊢
  rw [State.withReq_op]
  split at h <;> rename_i ho
  · rw [if_pos ho]
    obtain ⟨he, rfl⟩ | ⟨a, rest, he, rfl⟩ := writeGeneralStep_cases h <;> simp [writeGeneralStep, he]
  · rw [if_neg ho]
    obtain ⟨he, rfl⟩ | ⟨rest, he, rfl⟩ | ⟨rest, he, rfl⟩ := writeDeviceStep_cases h <;> simp [writeDeviceStep, he]

theorem delayStep_withReq (h : delayStep s = .next t) : delayStep (s.withReq q) = .next (t.withReq q) := by
  obtain ⟨ms, hd, ⟨he, rfl⟩ | ⟨k, he, rfl⟩⟩ := delayStep_cases h
  · simp [delayStep, hd, he]
  · by_cases hn : respWords s.op = 0 <;> simp [delayStep, hd, he, hn]

theorem readStep_withReq (h : readStep s = .next t) : readStep (s.withReq q) = .next (t.withReq q) := by
  obtain ⟨hn, ⟨he, rfl⟩ | ⟨bs, rest, he, hl, rfl⟩ | ⟨ans, rest, he, hl, rfl⟩⟩ := readStep_cases h
  · simp [readStep, hn, he]
  · simp [readStep, hn, he, hl]
  · rw [readStep_fail (s := s.withReq q) hn hl he]
    simp

theorem checkStep_withReq (h : checkStep s = .next t) : checkStep (s.withReq q) = .next (t.withReq q) := by
  obtain ⟨hv, rfl⟩ | ⟨ws, hv, ho, hi, rfl⟩ | ⟨ws, hv, hi, rfl⟩ := checkStep_cases h
  · simp [checkStep, hv]
  · rw [checkStep_identBad (s := s.withReq q) hv ho hi]
    simp
  · rw [checkStep_loaded (s := s.withReq q) hv hi]
    simp

theorem relFailStep_withReq (h : relFailStep s = .next t) : relFailStep (s.withReq q) = .next (t.withReq q) := by
  obtain ⟨he, rfl⟩ | ⟨k, he, rfl⟩ := relFailStep_cases h <;> simp [relFailStep, he]

/-- The step of the running operation carries the request port along. -/
theorem runningStep_withReq (h : runningStep s = .next t) : runningStep (s.withReq q) = .next (t.withReq q) := by
  unfold runningStep at h ⊢
  rw [State.withReq_phase]
  cases hp : s.phase <;> rw [hp] at h
  case idle => cases h; rfl
  case relOld => exact relOldStep_withReq q h
  case opening => exact openStep_withReq q h
  case write => exact writeStep_withReq q h
  case delay => exact delayStep_withReq q h
  case read => exact readStep_withReq q h
  case check => exact checkStep_withReq q h
  case relFail => exact relFailStep_withReq q h

/-- The step of the running operation leaves the request port as it is: it carries along what stands there. -/
theorem runningStep_req (h : runningStep s = .next t) : t.req = s.req := by
  have hsame : runningStep s = .next (t.withReq s.req) := runningStep_withReq s.req h
  have heq : t = t.withReq s.req := by rw [h] at hsame; exact Host.Outcome.next.inj hsame
  rw [heq, State.withReq]

end

/-- Settles O35: a busy block takes the step of the running operation, which carries the request port along. -/
theorem requestPortIgnoredWhileBusy : Obligations.RequestPortIgnoredWhileBusy := by
  intro s t q hr he hp hs
  rw [step_busy hr he hp] at hs
  refine ⟨runningStep_req hs, ?_⟩
  exact (step_busy (s := s.withReq q) hr he hp).trans (runningStep_withReq q hs)

/-! ### Whole operations (R113, R115 to R121) -/

/-- A requested BEGIN is accepted in IDLE. -/
theorem step_accept_begin {s : State} {r : Request} (hr : s.rst = false) (he : s.eval = none) (hp : s.phase = .idle)
    (hq : s.req = some r) (ho : r.opsel = 0) : step s = .next (acceptBegin r.addr r.p0 r.p1 s) := by
  rw [step_accept hr he hp hq, ho]
  rfl

/-- Settles O40: the accept and the release, which leave what the accept on the released block leaves. -/
theorem beginWhileBoundReleasesFirst : Obligations.BeginWhileBoundReleasesFirst := by
  intro s r k hr he hp hb hq ho hm
  refine ⟨_, (run_accept_begin 1 hr he hp hq ho).trans (run_relOld_released (m := k) 0 hr he ?_ hm), ?_⟩
  · simp [acceptBegin, hb]
  · refine Eq.trans (step_accept_begin hr he hp hq ho) ?_
    simp [acceptBegin, State.latch, State.setAddr, State.setPhase, State.setEnv, State.log, State.unbind]

/-- In IDLE, END is accepted. -/
theorem exec_endOp_idle {s : State} (a : Addr) (p0 p1 : Word) (hp : s.phase = .idle) :
    exec (.endOp a p0 p1) s = .next (acceptEnd p0 p1 s) :=
  exec_request_idle ⟨Op.endOp.sel, a, p0, p1⟩ hp

/-- Settles O41: on an unbound block END ends in its accept, on a bound one with the release. -/
theorem endReleasesTheBinding : Obligations.EndReleasesTheBinding := by
  intro s a p0 p1 hr he hp
  refine ⟨fun hb => ?_, fun hb k hm => ⟨_, exec_endOp_idle a p0 p1 hp, ?_⟩⟩
  · rw [exec_endOp_unbound a p0 p1 hp hb]
    simp [State.latch, State.setPhase, hp]
  · refine Eq.trans (run_relOld_released (m := k) 0 hr he ?_ hm) ?_
    · simp [acceptEnd, hb]
    · simp [Host.Core.run, acceptEnd, State.latch, State.setPhase, State.setEnv, State.log, State.unbind, hp]

/-- The parser reads two triplets as their words. -/
theorem parseBytes_two (v x : Word) :
    parseBytes [hiByte v, loByte v, checksum v, hiByte x, loByte x, checksum x] 2 = .ok [v, x] :=
  parseBytes_triplets [v, x] [] (by simp)

/-- The parser reads three triplets as their words. -/
theorem parseBytes_three (x y z : Word) :
    parseBytes [hiByte x, loByte x, checksum x, hiByte y, loByte y, checksum y, hiByte z, loByte z, checksum z] 3 =
      .ok [x, y, z] :=
  parseBytes_triplets [x, y, z] [] (by simp)

/-- Settles O42: GET_SERIAL as the reading operation of three words. -/
theorem getSerialReturnsThreeWords : Obligations.GetSerialReturnsThreeWords := by
  intro s a p0 p1 x y z ws rs k hr he hp hb hw hz ha
  exact ⟨_, exec_request_idle ⟨Op.getSerial.sel, a, p0, p1⟩ hp,
    run_acceptChip_readDone (o := .getSerial) p0 p1 hr he hb nofun nofun rfl hw hz ha rfl (parseBytes_three x y z)⟩

/-- Settles O43: CONDITION as the reading operation of one word. -/
theorem conditionReturnsOneWord : Obligations.ConditionReturnsOneWord := by
  intro s a hum temp v ws rs k hr he hp hb hw hz ha
  exact ⟨_, exec_request_idle ⟨Op.condition.sel, a, hum, temp⟩ hp,
    run_acceptChip_readDone (o := .condition) hum temp hr he hb nofun nofun rfl hw hz ha rfl (parseBytes_one v)⟩

/-- Settles O44: MEASURE_RAW as the reading operation of two words. -/
theorem measureRawReturnsTwoWords : Obligations.MeasureRawReturnsTwoWords := by
  intro s a hum temp v x ws rs k hr he hp hb hw hz ha
  exact ⟨_, exec_request_idle ⟨Op.measureRaw.sel, a, hum, temp⟩ hp,
    run_acceptChip_readDone (o := .measureRaw) hum temp hr he hb nofun nofun rfl hw hz ha rfl (parseBytes_two v x)⟩

/-- HEATER_OFF sends the two bytes of its command word (R56, R121). -/
theorem opFrame_heaterOff (p0 p1 : Word) : opFrame .heaterOff p0 p1 = [0x36#8, 0x15#8] := rfl

/-- Settles O46: the write and the sleep, or the write that failed. -/
theorem heaterOffWritesAndWaits : Obligations.HeaterOffWritesAndWaits := by
  intro s a p0 p1 ws k hr he hp hb
  have hacc := (exec_request_idle ⟨Op.heaterOff.sel, a, p0, p1⟩ hp).trans
    (congrArg Host.Outcome.next (acceptChip_bound .heaterOff p0 p1 hb))
  refine ⟨fun hw hz => ⟨_, hacc, ?_⟩, fun hw => ⟨_, hacc, ?_⟩⟩
  · refine Eq.trans (run_write_sent 1 hr he rfl nofun hw) ?_
    refine Eq.trans (run_delay_slept (ms := 1) (m := k) 0 hr he rfl rfl hz) ?_
    rw [txFrame_accept]
    simp [Host.Core.run, State.setPhase, State.log, State.setEnv, State.loadTx, State.latch, overwrite,
      opFrame_heaterOff, respWords]
  · refine Eq.trans (run_write_failed 0 hr he rfl nofun hw) ?_
    rw [txFrame_accept]
    simp [Host.Core.run, State.raiseFail, State.setPhase, State.log, State.setEnv, State.loadTx, State.latch, overwrite,
      opFrame_heaterOff]

/-- In IDLE, BEGIN is accepted. -/
theorem exec_beginOp_idle {s : State} (a : Addr) (p0 p1 : Word) (hp : s.phase = .idle) :
    exec (.beginOp a p0 p1) s = .next (acceptBegin a p0 p1 s) :=
  exec_request_idle ⟨Op.beginOp.sel, a, p0, p1⟩ hp

/-- Settles O39: the handle, then the three calls of a reading operation and the words of the serial number. -/
theorem beginBindsAndLeavesTheSerial : Obligations.BeginBindsAndLeavesTheSerial := by
  intro s a p0 p1 x y z h os ws rs k hr he hp hb hopens hw hz ha hi
  refine ⟨_, exec_beginOp_idle a p0 p1 hp, ?_⟩
  have hphase := acceptBegin_phase_unbound a p0 p1 hb
  have hx : Exchange (beginOpened ⟨0, a, p0, p1⟩ h os s) 1 k _ ws rs := ⟨hr, he, rfl, rfl, nofun, hw, hz, ha⟩
  refine Eq.trans (run_busy 4 hr he (by rw [hphase]; nofun)
    ((runningStep_of_opening hphase).trans (openStep_handle hopens))) ?_
  refine Eq.trans (hx.run_to_loaded rfl (parseBytes_three x y z) (by simp [hi]) 0) ?_
  rw [State.exchanged, txFrame_beginOpened]
  simp [Host.Core.run, beginOpened, acceptBegin, State.setPhase, State.loadWords, State.loadRx, State.log, State.setEnv,
    State.loadTx, State.bind, State.setAddr, State.latch, overwrite, frameBytes_getSerial, respWords]

end Sys2Proof.Machine
end

section
/-! PROOF. The invariant of the sequencer (43_sequencer.md R114, R123): every step keeps it, from it every step is defined
and is a row of the transition table, and BOUND counts the bindings. -/

namespace Sys2Proof.Machine

/-! ### What the invariant says, phase by phase -/

section
variable {s : State}

theorem phaseInv_idle_iff (hp : s.phase = .idle) : PhaseInv s ↔ IdleInv s := by
  simp only [PhaseInv, hp]

theorem phaseInv_relOld_iff (hp : s.phase = .relOld) :
    PhaseInv s ↔ Cleared s ∧ s.bound = true ∧ (s.op = .beginOp ∨ s.op = .endOp) := by
  simp only [PhaseInv, hp]

theorem phaseInv_opening_iff (hp : s.phase = .opening) :
    PhaseInv s ↔ Cleared s ∧ s.bound = false ∧ s.op = .beginOp := by
  simp only [PhaseInv, hp]

theorem phaseInv_write_iff (hp : s.phase = .write) :
    PhaseInv s ↔ Cleared s ∧ s.bound = true ∧ s.op ≠ .endOp ∧ s.txFrame = opFrame s.op s.p0 s.p1 := by
  simp only [PhaseInv, hp]

theorem phaseInv_delay_iff (hp : s.phase = .delay) :
    PhaseInv s ↔ Cleared s ∧ s.bound = true ∧ s.op ≠ .endOp ∧
      (s.op ≠ .softReset → ∃ pre, s.trace = pre ++ [.wrote s.hnd (opFrame s.op s.p0 s.p1) true]) := by
  simp only [PhaseInv, hp]

theorem phaseInv_read_iff (hp : s.phase = .read) :
    PhaseInv s ↔ Cleared s ∧ s.bound = true ∧ respWords s.op ≠ 0 ∧
      ∃ pre bs ms, s.trace = pre ++ [.wrote s.hnd bs true, .slept ms] := by
  simp only [PhaseInv, hp]

theorem phaseInv_check_iff (hp : s.phase = .check) :
    PhaseInv s ↔ Cleared s ∧ s.bound = true ∧ respWords s.op ≠ 0 ∧ s.rxFrame.length = 3 * respWords s.op ∧
      ∃ pre, s.trace = pre ++ [.didRead s.hnd (3 * respWords s.op) (some s.rxFrame)] := by
  simp only [PhaseInv, hp]

/-- NWORDS and W0..W2 are zero: a failure leaves no word (R123 item 5). -/
def NoWords (s : State) : Prop := s.nwords = 0 ∧ s.w0 = 0 ∧ s.w1 = 0 ∧ s.w2 = 0

/-- What the accept step leaves is an OK without words. -/
theorem Cleared.status (h : Cleared s) : s.status = .ok := h.1

theorem Cleared.noWords (h : Cleared s) : NoWords s := h.2

theorem phaseInv_relFail_iff (hp : s.phase = .relFail) :
    PhaseInv s ↔ NoWords s ∧ s.bound = true ∧ s.op = .beginOp ∧ allowedStatus s.op s.status = true ∧
      s.status ≠ .ok := by
  simp only [PhaseInv, hp, NoWords, and_assoc]

/-- What does not touch STATUS, NWORDS and W0..W2 leaves them cleared. -/
theorem Cleared.congr {t : State} (h : Cleared s)
    (ht : t.status = s.status ∧ t.nwords = s.nwords ∧ t.w0 = s.w0 ∧ t.w1 = s.w1 ∧ t.w2 = s.w2) : Cleared t := by
  simpa only [Cleared, ht] using h

theorem NoWords.congr {t : State} (h : NoWords s)
    (ht : t.nwords = s.nwords ∧ t.w0 = s.w0 ∧ t.w1 = s.w1 ∧ t.w2 = s.w2) : NoWords t := by
  simpa only [NoWords, ht] using h

/-- An operation that has ended without a word, because it has no response or because it failed. -/
theorem idleInv_of_noWords (hw : NoWords s) (ha : allowedStatus s.op s.status = true)
    (hr : s.status = .ok → respWords s.op = 0) (hb : needsBound s.op = false → s.bound = false)
    (hc : needsBound s.op = true → (s.bound = true ↔ s.status ≠ .eNotReady)) : IdleInv s := by
  obtain ⟨hcount, hw0, hw1, hw2⟩ := hw
  constructor
  case allowed => exact ha
  case countOk => exact fun h => by simp [hcount, hr h]
  case countFail => exact fun _ => hcount
  case blank0 => exact fun _ => hw0
  case blank1 => exact fun _ => hw1
  case blank2 => exact fun _ => hw2
  case boundBegin =>
    intro ho
    have hst : s.status ≠ .ok := fun h => by simpa [ho, respWords] using hr h
    simp [hb (by rw [ho]; rfl), hst]
  case boundEnd => exact fun ho => hb (by rw [ho]; rfl)
  case boundChip => exact hc
  case ident => exact fun ho h => by simpa [ho, respWords] using hr h
  case lastRead => exact fun h hn => absurd (hr h) hn

end

/-! ### The parts of the invariant that hold in every phase -/

/-- The binding that the registers say is held (R14, R16). -/
def State.live (s : State) : Option Handle := if s.bound = true then some s.hnd else none

theorem State.live_of_bound {s : State} (h : s.bound = true) : s.live = some s.hnd := if_pos h

theorem State.live_of_unbound {s : State} (h : s.bound = false) : s.live = none := by simp [State.live, h]

/-- Both buffers have their sizes, and their lengths fit them (R20, R21). -/
structure BuffersFit (tx : List Byte) (txlen : BitVec 4) (rx : List Byte) (rxlen : BitVec 4) : Prop where
  txSize : tx.length = Config.txCap
  rxSize : rx.length = Config.rxCap
  txLen : txlen.toNat ≤ Config.txCap
  rxLen : rxlen.toNat ≤ Config.rxCap

theorem Inv.buffers {s : State} (h : Inv s) : BuffersFit s.txbuf s.txlen s.rxbuf s.rxlen :=
  ⟨h.txSize, h.rxSize, h.txLen, h.rxLen⟩

/-- A frame of the block fits TXBUF. -/
theorem BuffersFit.loadTx {tx rx f : List Byte} {m n : BitVec 4} (h : BuffersFit tx m rx n) (hf : f.length ≤ 8) :
    BuffersFit (overwrite f tx) (BitVec.ofNat 4 f.length) rx n where
  txSize := (length_overwrite (hf.trans h.txSize.ge)).trans h.txSize
  rxSize := h.rxSize
  txLen := (toNat_ofNat_four (by omega)).trans_le hf
  rxLen := h.rxLen

/-- A response fits RXBUF. -/
theorem BuffersFit.loadRx {tx rx bs : List Byte} {m n : BitVec 4} (h : BuffersFit tx m rx n) (hb : bs.length ≤ 9) :
    BuffersFit tx m (overwrite bs rx) (BitVec.ofNat 4 bs.length) where
  txSize := h.txSize
  rxSize := (length_overwrite (hb.trans h.rxSize.ge)).trans h.rxSize
  txLen := h.txLen
  rxLen := (toNat_ofNat_four hb).trans_le hb

/-- The replay of a trace goes on with one more call. -/
theorem replay_append {tr : List Event} {live : Option Handle} (h : replay tr = some live) (e : Event) :
    replay (tr ++ [e]) = liveAfter live e := by
  unfold replay at h ⊢
  simp [List.foldlM_append, h]

/-- A trace whose last calls are a write which went well and a sleep: a read from that handle may follow. -/
def ReadMayFollow (tr : List Event) (h : Handle) : Prop :=
  ∃ pre bs ms, tr = pre ++ [.wrote h bs true, .slept ms]

/-- Every read of a longer trace has its delay, if the last call is no read or may follow. -/
theorem readsDelayed_append {tr : List Event} {e : Event} (h : ReadsDelayed tr)
    (he : ∀ hd n a, e = .didRead hd n a → ReadMayFollow tr hd) : ReadsDelayed (tr ++ [e]) := by
  intro pre hd n a post heq
  obtain rfl | ⟨post', e', rfl⟩ := List.eq_nil_or_concat post
  · obtain ⟨rfl, hlast⟩ := List.append_inj' heq rfl
    exact he hd n a (List.singleton_inj.1 hlast)
  · have heq' : tr ++ [e] = (pre ++ .didRead hd n a :: post') ++ [e'] := by simpa using heq
    exact h pre hd n a post' (List.append_inj' heq' rfl).1

section
variable {s t : State}

theorem Inv.replay_eq_live (h : Inv s) : replay s.trace = some s.live := h.binding

/-- A step without a call keeps the invariant, if what it leaves fits its phase. -/
theorem Inv.of_quiet (h : Inv s) (ht : t.rst = s.rst ∧ t.trace = s.trace ∧ t.bound = s.bound ∧ t.hnd = s.hnd)
    (hf : BuffersFit t.txbuf t.txlen t.rxbuf t.rxlen) (hp : PhaseInv t) : Inv t := by
  obtain ⟨hr, htr, hb, hh⟩ := ht
  exact ⟨hr.trans h.noReset, by rw [htr, hb, hh]; exact h.binding, htr ▸ h.reads,
    hf.txSize, hf.rxSize, hf.txLen, hf.rxLen, hp⟩

/-- A step with a call keeps the invariant, if the call goes by the rule of handles, a read follows its delay, and what
the step leaves fits its phase. -/
theorem Inv.of_call {e : Event} (h : Inv s) (ht : t.rst = s.rst ∧ t.trace = s.trace ++ [e])
    (hl : liveAfter s.live e = some t.live) (hd : ∀ hd n a, e = .didRead hd n a → ReadMayFollow s.trace hd)
    (hf : BuffersFit t.txbuf t.txlen t.rxbuf t.rxlen) (hp : PhaseInv t) : Inv t := by
  obtain ⟨hr, htr⟩ := ht
  exact ⟨hr.trans h.noReset, by rw [htr, replay_append h.replay_eq_live, hl]; rfl,
    htr ▸ readsDelayed_append h.reads hd, hf.txSize, hf.rxSize, hf.txLen, hf.rxLen, hp⟩

/-! ### The calls keep to the rule of handles (R123 items 1 and 2) -/

/-- `T.release` of the handle held ends the binding. -/
theorem liveAfter_released (hs : s.bound = true) (ht : t.bound = false) :
    liveAfter s.live (.released s.hnd) = some t.live := by
  simp [State.live_of_bound hs, State.live_of_unbound ht, liveAfter]

/-- `T.open` while no binding is held gives the one it answers. -/
theorem liveAfter_opened {hd : Handle} (hs : s.bound = false) (a : Addr) (ht : t.bound = true ∧ t.hnd = hd) :
    liveAfter s.live (.opened a (some hd)) = some t.live := by
  rw [State.live_of_unbound hs, State.live_of_bound ht.1, ht.2, liveAfter]

/-- `T.open` that fails gives none. -/
theorem liveAfter_openFailed (hs : s.bound = false) (a : Addr) (ht : t.bound = false) :
    liveAfter s.live (.opened a none) = some t.live := by
  rw [State.live_of_unbound hs, State.live_of_unbound ht, liveAfter]

/-- The event is a call to the device through the handle `h`, or no call to the transport. -/
def Uses (h : Handle) : Event → Prop
  | .wrote h' _ _ | .wroteGeneral h' _ _ | .didRead h' _ _ => h' = h
  | .slept _ => True
  | .opened _ _ | .released _ => False

/-- A call to the device through the handle held keeps it. -/
theorem liveAfter_uses {e : Event} (hs : s.bound = true) (he : Uses s.hnd e) (ht : t.bound = s.bound ∧ t.hnd = s.hnd) :
    liveAfter s.live e = some t.live := by
  rw [State.live_of_bound hs, State.live_of_bound (ht.1.trans hs), ht.2]
  cases e with
  | wrote h' | wroteGeneral h' | didRead h' => exact if_pos he
  | slept => rfl
  | opened | released => exact he.elim

/-! ### A failure (R123 items 4 and 5, R155) -/

/-- Only BEGIN and END need no binding. -/
theorem needsBound_eq_false_iff {o : Op} : needsBound o = false ↔ o = .beginOp ∨ o = .endOp := by
  cases o <;> decide

/-- END cannot fail. -/
theorem ne_endOp_of_allowedStatus {o : Op} {c : Status} (h : allowedStatus o c = true) (hc : c ≠ .ok) : o ≠ .endOp := by
  rintro rfl
  cases c <;> simp [allowedStatus] at h hc

/-- A failure leaves a state that fits its phase: REL_FAIL for a BEGIN that holds a binding, else IDLE. -/
theorem phaseInv_raiseFail {c : Status} (hw : NoWords s) (hb : s.bound = true ∨ s.op = .beginOp)
    (ha : allowedStatus s.op c = true) (hc : c ≠ .ok) (hn : c ≠ .eNotReady) : PhaseInv (s.raiseFail c) := by
  obtain ⟨ho, hbd, hp⟩ | ⟨hor, hp⟩ := raiseFail_phase_cases s c
  · exact (phaseInv_relFail_iff hp).2 ⟨hw, hbd, ho, ha, hc⟩
  · have hend := ne_endOp_of_allowedStatus ha hc
    refine (phaseInv_idle_iff hp).2 (idleInv_of_noWords hw ha (fun h => absurd h hc) (fun h => ?_) fun h => ?_)
    · have ho : s.op = .beginOp := (needsBound_eq_false_iff.1 h).resolve_right hend
      exact hor.resolve_left (not_not_intro ho)
    · have hbd : s.bound = true := hb.resolve_right (ne_beginOp_of_needsBound h)
      exact iff_of_true hbd hn

end

/-! ### Every step keeps the invariant (R123) -/

section
variable {s t : State}

/-- The accept of BEGIN fits REL_OLD on a bound block, OPEN on an unbound one. -/
theorem phaseInv_acceptBegin (s : State) (a : Addr) (p0 p1 : Word) : PhaseInv (acceptBegin a p0 p1 s) := by
  cases hb : s.bound with
  | true => exact (phaseInv_relOld_iff (by simp [acceptBegin, hb])).2 (by simp [acceptBegin, Cleared, hb])
  | false => exact (phaseInv_opening_iff (by simp [acceptBegin, hb])).2 (by simp [acceptBegin, Cleared, hb])

/-- The accept of END fits REL_OLD on a bound block, IDLE on an unbound one. -/
theorem phaseInv_acceptEnd (s : State) (p0 p1 : Word) : PhaseInv (acceptEnd p0 p1 s) := by
  cases hb : s.bound with
  | true => exact (phaseInv_relOld_iff (by simp [acceptEnd, hb])).2 (by simp [acceptEnd, Cleared, hb])
  | false =>
    refine (phaseInv_idle_iff (by simp [acceptEnd, hb])).2 (idleInv_of_noWords ?_ ?_ ?_ ?_ ?_) <;>
      simp [acceptEnd, hb, NoWords, allowedStatus, respWords, needsBound]

/-- Every operation that needs a binding can end with E_NOT_READY (R152, R160). -/
theorem allowedStatus_eNotReady {o : Op} (h : needsBound o = true) : allowedStatus o .eNotReady = true := by
  cases o with
  | beginOp | endOp => cases h
  | getSerial | condition | measureRaw | selfTest | heaterOff | softReset => rfl

/-- The accept of a chip operation leaves its frame in TXBUF, or E_NOT_READY between operations. -/
theorem inv_acceptChip {o : Op} (p0 p1 : Word) (h : Inv s) (hc : needsBound o = true) :
    Inv (acceptChip o p0 p1 s) := by
  cases hb : s.bound with
  | true =>
    rw [acceptChip_bound _ _ _ hb]
    have hend : o ≠ .endOp := by rintro rfl; cases hc
    refine h.of_quiet (by simp) (by simpa using h.buffers.loadTx (length_opFrame o p0 p1))
      ((phaseInv_write_iff (by simp)).2 ⟨by simp [Cleared], by simp [hb], by simp [hend], ?_⟩)
    exact txFrame_accept s o p0 p1
  | false =>
    rw [acceptChip_unbound _ _ _ hb]
    refine h.of_quiet (by simp) (by simpa using h.buffers)
      ((phaseInv_idle_iff (by simp)).2 (idleInv_of_noWords ?_ ?_ ?_ ?_ ?_)) <;>
      simp [NoWords, hb, allowedStatus_eNotReady hc]

/-- Every accept keeps the invariant. -/
theorem inv_accepted (o : Op) (a : Addr) (p0 p1 : Word) (h : Inv s) : Inv (accepted o a p0 p1 s) := by
  cases o with
  | beginOp =>
    exact h.of_quiet (by simp [accepted, acceptBegin]) (by simpa [accepted, acceptBegin] using h.buffers)
      (phaseInv_acceptBegin s a p0 p1)
  | endOp =>
    exact h.of_quiet (by simp [accepted, acceptEnd]) (by simpa [accepted, acceptEnd] using h.buffers)
      (phaseInv_acceptEnd s p0 p1)
  | getSerial | condition | measureRaw | selfTest | heaterOff | softReset => exact inv_acceptChip p0 p1 h rfl

/-- The release of an old binding leads BEGIN to OPEN, and ends END. -/
theorem inv_relOldStep (h : Inv s) (hp : s.phase = .relOld) (hs : relOldStep s = .next t) : Inv t := by
  obtain ⟨hcl, hb, ho⟩ := (phaseInv_relOld_iff hp).1 h.phase
  obtain ⟨_, rfl⟩ | ⟨k, _, rfl⟩ := relOldStep_cases hs
  · exact h
  refine h.of_call (e := .released s.hnd) (by simp) (liveAfter_released hb (by simp)) nofun
    (by simpa using h.buffers) ?_
  obtain ho | ho := ho
  · exact (phaseInv_opening_iff (by simp [ho])).2 ⟨hcl.congr (by simp), by simp, by simp [ho]⟩
  · refine (phaseInv_idle_iff (by simp [ho])).2 (idleInv_of_noWords (hcl.noWords.congr (by simp)) ?_ ?_ ?_ ?_) <;>
      simp [ho, hcl.status, allowedStatus, respWords, needsBound]

/-- The answer of `T.open` leads BEGIN to WRITE with the get-serial-number frame, or ends it unbound. -/
theorem inv_openStep (h : Inv s) (hp : s.phase = .opening) (hs : openStep s = .next t) : Inv t := by
  obtain ⟨hcl, hb, ho⟩ := (phaseInv_opening_iff hp).1 h.phase
  obtain ⟨_, rfl⟩ | ⟨hd, rest, _, rfl⟩ | ⟨rest, _, rfl⟩ := openStep_cases hs
  · exact h
  · refine h.of_call (e := .opened s.addr (some hd)) (by simp) (liveAfter_opened hb s.addr (by simp)) nofun
      (by simpa using h.buffers.loadTx (f := frameBytes 0x3682#16 []) (by simp))
      ((phaseInv_write_iff (by simp)).2 ⟨hcl.congr (by simp), by simp, by simp [ho], ?_⟩)
    refine (txFrame_loadTx _ (by simp)).trans ?_
    simp [ho, opFrame, cmdWord, payload]
  · refine h.of_call (e := .opened s.addr none) (by simp) (liveAfter_openFailed hb s.addr (by simp [hb])) nofun
      (by simpa using h.buffers) ?_
    refine phaseInv_raiseFail (hcl.noWords.congr (by simp)) (.inr (by simp [ho])) ?_ nofun nofun
    simp [ho, allowedStatus]

/-- A write that is answered `ok`, and the general call, lead to DELAY; a failed write aborts. -/
theorem inv_writeStep (h : Inv s) (hp : s.phase = .write) (hs : writeStep s = .next t) : Inv t := by
  obtain ⟨hcl, hb, ho, htx⟩ := (phaseInv_write_iff hp).1 h.phase
  unfold writeStep at hs
  split at hs <;> rename_i hop
  · obtain ⟨_, rfl⟩ | ⟨a, rest, _, rfl⟩ := writeGeneralStep_cases hs
    · exact h
    · refine h.of_call (e := .wroteGeneral s.hnd s.txFrame a) (by simp) (liveAfter_uses hb rfl (by simp)) nofun
        (by simpa using h.buffers) ((phaseInv_delay_iff (by simp)).2 ⟨hcl.congr (by simp), by simp [hb], ?_, ?_⟩)
      all_goals simp [hop]
  · obtain ⟨_, rfl⟩ | ⟨rest, _, rfl⟩ | ⟨rest, _, rfl⟩ := writeDeviceStep_cases hs
    · exact h
    · refine h.of_call (e := .wrote s.hnd s.txFrame true) (by simp) (liveAfter_uses hb rfl (by simp)) nofun
        (by simpa using h.buffers) ((phaseInv_delay_iff (by simp)).2
          ⟨hcl.congr (by simp), by simp [hb], by simp [ho], fun _ => ⟨s.trace, ?_⟩⟩)
      simp [htx]
    · refine h.of_call (e := .wrote s.hnd s.txFrame false) (by simp) (liveAfter_uses hb rfl (by simp)) nofun
        (by simpa using h.buffers) ?_
      exact phaseInv_raiseFail (hcl.noWords.congr (by simp)) (.inl (by simp [hb]))
        (by simpa using allowedStatus_eWrite ho hop) nofun nofun

/-- An operation without a response but END needs a binding. -/
theorem needsBound_of_respWords_eq_zero {o : Op} (he : o ≠ .endOp) (hn : respWords o = 0) : needsBound o = true := by
  cases o with
  | endOp => exact absurd rfl he
  | beginOp | getSerial | condition | measureRaw | selfTest => cases hn
  | heaterOff | softReset => rfl

/-- The sleep ends an operation without a response, and leads the others to READ. -/
theorem inv_delayStep (h : Inv s) (hp : s.phase = .delay) (hs : delayStep s = .next t) : Inv t := by
  obtain ⟨hcl, hb, ho, htr⟩ := (phaseInv_delay_iff hp).1 h.phase
  obtain ⟨ms, _, ⟨_, rfl⟩ | ⟨k, _, rfl⟩⟩ := delayStep_cases hs
  · exact h
  refine h.of_call (e := .slept ms) (by simp) (liveAfter_uses hb trivial (by simp)) nofun (by simpa using h.buffers) ?_
  by_cases hn : respWords s.op = 0
  · have hc : needsBound s.op = true := needsBound_of_respWords_eq_zero ho hn
    refine (phaseInv_idle_iff (by simp [hn])).2 (idleInv_of_noWords (hcl.noWords.congr (by simp)) ?_ ?_ ?_ ?_) <;>
      simp [hcl.status, allowedStatus_ok, hn, hc, hb]
  · obtain ⟨pre, htr⟩ := htr (ne_softReset_of_respWords hn)
    refine (phaseInv_read_iff (by simp [hn])).2 ⟨hcl.congr (by simp), by simp [hb], by simp [hn], pre,
      opFrame s.op s.p0 s.p1, ms, ?_⟩
    simp [htr]

/-- A response of the requested length leads to CHECK; any other answer aborts. -/
theorem inv_readStep (h : Inv s) (hp : s.phase = .read) (hs : readStep s = .next t) : Inv t := by
  obtain ⟨hcl, hb, hn, htr⟩ := (phaseInv_read_iff hp).1 h.phase
  have hdelay : ∀ ans hd n a, Event.didRead s.hnd (3 * respWords s.op) ans = .didRead hd n a →
      ReadMayFollow s.trace hd := by
    rintro _ _ _ _ ⟨⟩
    exact htr
  obtain ⟨_, ⟨_, rfl⟩ | ⟨bs, rest, _, hl, rfl⟩ | ⟨ans, rest, _, _, rfl⟩⟩ := readStep_cases hs
  · exact h
  · have hl9 : bs.length ≤ 9 := by have := respWords_le s.op; omega
    refine h.of_call (e := .didRead s.hnd (3 * respWords s.op) (some bs)) (by simp) (liveAfter_uses hb rfl (by simp))
      (hdelay _) (by simpa using h.buffers.loadRx hl9) ((phaseInv_check_iff (by simp)).2 ⟨hcl.congr (by simp), ?_⟩)
    rw [rxFrame_received _ hl]
    simp [hb, hn, hl]
  · refine h.of_call (e := .didRead s.hnd (3 * respWords s.op) ans) (by simp) (liveAfter_uses hb rfl (by simp))
      (hdelay _) (by simpa using h.buffers) ?_
    exact phaseInv_raiseFail (hcl.noWords.congr (by simp)) (.inl (by simp [hb]))
      (by simpa using (allowedStatus_of_respWords hn).1) nofun nofun

/-- The words the parser answers are those of the scan. -/
theorem scanTriplets_of_parseBytes {buf : List Byte} {n : Nat} {ws : List Word} (h : parseBytes buf n = .ok ws) :
    ws.length = n ∧ scanTriplets buf n = some ws := by
  obtain ⟨_, rfl, rest, rfl⟩ := parseBytes_eq_ok_iff.1 h
  exact ⟨rfl, scanTriplets_triplets ws rest⟩

/-- Words loaded over blank registers stand in front, the others stay blank. -/
theorem words_loadWords {ws : List Word} (hw : NoWords s) (hl : ws.length ≤ 3) (n : Nat) :
    (s.loadWords ws n).words = ws ++ List.replicate (3 - ws.length) 0 := by
  obtain ⟨_, h0, h1, h2⟩ := hw
  simpa [State.words, h0, h1, h2] using getD_words hl

/-- A response that CHECK accepts ends the operation with its words. -/
theorem idleInv_loadWords {ws : List Word} (hcl : Cleared s) (hb : s.bound = true) (hn : respWords s.op ≠ 0)
    (hl : s.rxFrame.length = 3 * respWords s.op)
    (htr : ∃ pre, s.trace = pre ++ [.didRead s.hnd (3 * respWords s.op) (some s.rxFrame)])
    (hv : parseBytes s.rxFrame (respWords s.op) = .ok ws) (hi : ¬(s.op = .beginOp ∧ identBad ws = true)) :
    IdleInv (s.loadWords ws (respWords s.op)) := by
  obtain ⟨hst, _, hw0, hw1, hw2⟩ := id hcl
  obtain ⟨hlen, hscan⟩ := scanTriplets_of_parseBytes hv
  have hle : ws.length ≤ 3 := hlen.trans_le (respWords_le s.op)
  have hcount : (BitVec.ofNat 2 (respWords s.op)).toNat = ws.length := by
    rw [BitVec.toNat_ofNat, Nat.mod_eq_of_lt (by omega), hlen]
  have hwords := words_loadWords hcl.noWords hle (respWords s.op)
  have hblank : ∀ i w, w = 0 → ws.length ≤ i → ws.getD i w = 0 := fun i w hw h => by
    rw [List.getD_eq_default _ _ h, hw]
  constructor
  case allowed => simp [hst, allowedStatus_ok]
  case countOk => exact fun _ => hcount.trans hlen
  case countFail => exact fun h => absurd hst h
  case blank0 => exact fun h => hblank 0 _ hw0 (hcount ▸ h)
  case blank1 => exact fun h => hblank 1 _ hw1 (hcount ▸ h)
  case blank2 => exact fun h => hblank 2 _ hw2 (hcount ▸ h)
  case boundBegin => exact fun _ => iff_of_true hb hst
  case boundEnd => exact fun ho => absurd (congrArg respWords ho) hn
  case boundChip => exact fun _ => iff_of_true hb (by simp [hst])
  case ident =>
    intro (ho : s.op = .beginOp) _
    have hlen3 : ws.length = 3 := by rw [hlen, ho]; rfl
    rw [hwords]
    simpa [hlen3, ho] using hi
  case lastRead =>
    obtain ⟨pre, htr⟩ := htr
    refine fun _ _ => ⟨pre, s.hnd, s.rxFrame, htr, hl, ?_⟩
    rw [hwords]
    simpa [← hlen] using hscan

/-- What holds between operations is a matter of the result, BOUND and the trace. -/
theorem IdleInv.congr (h : IdleInv s) (ht : t.op = s.op ∧ t.status = s.status ∧ t.nwords = s.nwords ∧ t.w0 = s.w0 ∧
    t.w1 = s.w1 ∧ t.w2 = s.w2 ∧ t.bound = s.bound ∧ t.trace = s.trace) : IdleInv t := by
  cases h
  constructor <;> simpa only [ht, State.words]

/-- CHECK aborts, or ends the operation with all words of the response. -/
theorem inv_checkStep (h : Inv s) (hp : s.phase = .check) (hs : checkStep s = .next t) : Inv t := by
  obtain ⟨hcl, hb, hn, hl, htr⟩ := (phaseInv_check_iff hp).1 h.phase
  obtain ⟨_, rfl⟩ | ⟨ws, _, ho, _, rfl⟩ | ⟨ws, hv, hi, rfl⟩ := checkStep_cases hs
  · exact h.of_quiet (by simp) (by simpa using h.buffers)
      (phaseInv_raiseFail hcl.noWords (.inl hb) (allowedStatus_of_respWords hn).2 nofun nofun)
  · exact h.of_quiet (by simp) (by simpa using h.buffers)
      (phaseInv_raiseFail hcl.noWords (.inl hb) (by rw [ho]; rfl) nofun nofun)
  · exact h.of_quiet (by simp) (by simpa using h.buffers)
      ((phaseInv_idle_iff (by simp)).2 ((idleInv_loadWords hcl hb hn hl htr hv hi).congr (by simp)))

/-- The release of a failed BEGIN ends it unbound, with its failure code. -/
theorem inv_relFailStep (h : Inv s) (hp : s.phase = .relFail) (hs : relFailStep s = .next t) : Inv t := by
  obtain ⟨hw, hb, ho, ha, hc⟩ := (phaseInv_relFail_iff hp).1 h.phase
  obtain ⟨_, rfl⟩ | ⟨k, _, rfl⟩ := relFailStep_cases hs
  · exact h
  refine h.of_call (e := .released s.hnd) (by simp) (liveAfter_released hb (by simp)) nofun (by simpa using h.buffers)
    ((phaseInv_idle_iff (by simp)).2 (idleInv_of_noWords (hw.congr (by simp)) (by simpa using ha) ?_ ?_ ?_)) <;>
    simp [ho, hc, needsBound]

/-- The step of the running operation keeps the invariant. -/
theorem inv_runningStep (h : Inv s) (hi : s.phase ≠ .idle) (hs : runningStep s = .next t) : Inv t := by
  cases hp : s.phase with
  | idle => exact absurd hp hi
  | relOld => exact inv_relOldStep h hp (runningStep_of_relOld hp ▸ hs)
  | opening => exact inv_openStep h hp (runningStep_of_opening hp ▸ hs)
  | write => exact inv_writeStep h hp (runningStep_of_write hp ▸ hs)
  | delay => exact inv_delayStep h hp (runningStep_of_delay hp ▸ hs)
  | read => exact inv_readStep h hp (runningStep_of_read hp ▸ hs)
  | check => exact inv_checkStep h hp (runningStep_of_check hp ▸ hs)
  | relFail => exact inv_relFailStep h hp (runningStep_of_relFail hp ▸ hs)

/-- What holds in a phase does not depend on the evaluation port. -/
theorem phaseInv_answer (v : PortOut) (h : PhaseInv s) : PhaseInv (s.answer v) := by
  cases hp : s.phase <;> simp only [PhaseInv, State.answer_phase, hp] at h ⊢
  case idle => exact h.congr (by simp)
  all_goals simpa [Cleared, State.txFrame, State.rxFrame] using h

end

/-- Settles O53, by cases on what the step does and, for a running operation, on its phase. -/
theorem stepKeepsTheInvariant : Obligations.StepKeepsTheInvariant := by
  intro s t h hs
  obtain ⟨hrst, _⟩ | ⟨_, p, _, v, rfl⟩ | ⟨_, _, _, _, rfl⟩ | ⟨_, _, _, r, _, rfl⟩ | ⟨_, _, hi, hrun⟩ := step_cases hs
  · simp [h.noReset] at hrst
  · exact h.of_quiet ⟨rfl, rfl, rfl, rfl⟩ h.buffers (phaseInv_answer v h.phase)
  · exact h
  · exact inv_accepted _ _ _ _ h
  · exact inv_runningStep h hi hrun

/-! ### From the invariant every step is defined (R100, R114) -/

section
variable {s : State}

/-- A response of the requested length is no fault of CHECK. -/
theorem checkStep_defined (hl : s.rxFrame.length = 3 * respWords s.op) : ∃ t, checkStep s = .next t := by
  obtain hv | ⟨vs, _, hv⟩ := parseBytes_of_length (respWords_le s.op) hl
  · exact ⟨_, checkStep_badCrc hv⟩
  by_cases hi : s.op = .beginOp ∧ identBad vs = true
  · exact ⟨_, checkStep_identBad hv hi.1 hi.2⟩
  · exact ⟨_, checkStep_loaded hv hi⟩

/-- A write is answered one way or another, or the block waits. -/
theorem writeStep_defined (s : State) : ∃ t, writeStep s = .next t := by
  by_cases ho : s.op = .softReset
  · cases hg : s.env.generals with
    | nil => exact ⟨s, by simp [writeStep, ho, writeGeneralStep, hg]⟩
    | cons ok gs => exact ⟨_, writeStep_general ho hg⟩
  · cases hw : s.env.writes with
    | nil => exact ⟨s, by simp [writeStep, ho, writeDeviceStep, hw]⟩
    | cons ok ws =>
      cases ok with
      | true => exact ⟨_, writeStep_ok ho hw⟩
      | false => exact ⟨_, writeStep_fail ho hw⟩

/-- Where a response is due READ takes any answer, or waits. -/
theorem readStep_defined (hn : respWords s.op ≠ 0) : ∃ t, readStep s = .next t := by
  cases ha : s.env.reads with
  | nil => exact ⟨s, by simp [readStep, hn, ha]⟩
  | cons ans rs =>
    obtain hl | ⟨bs, rfl, hl⟩ := answer_cases ans (3 * respWords s.op)
    · exact ⟨_, readStep_fail hn hl ha⟩
    · exact ⟨_, readStep_received hn hl ha⟩

/-- OPEN takes any answer, or waits. -/
theorem openStep_defined (s : State) : ∃ t, openStep s = .next t := by
  cases ha : s.env.opens with
  | nil => exact ⟨s, by simp [openStep, ha]⟩
  | cons ans os =>
    cases ans with
    | none => exact ⟨_, openStep_fail ha⟩
    | some h => exact ⟨_, openStep_handle ha⟩

/-- Every operation but END has a delay to sleep. -/
theorem delayStep_defined (ho : s.op ≠ .endOp) : ∃ t, delayStep s = .next t := by
  obtain ⟨ms, hd⟩ := exists_delayMs ho
  cases hz : s.env.sleeps with
  | zero => exact ⟨s, by simp [delayStep, hd, hz]⟩
  | succ k => exact ⟨_, delayStep_slept hd hz⟩

/-- REL_OLD takes the return of the release, or waits. -/
theorem relOldStep_defined (s : State) : ∃ t, relOldStep s = .next t := by
  cases hm : s.env.releases with
  | zero => exact ⟨s, by simp [relOldStep, hm]⟩
  | succ k => exact ⟨_, relOldStep_released hm⟩

/-- REL_FAIL takes the return of the release, or waits. -/
theorem relFailStep_defined (s : State) : ∃ t, relFailStep s = .next t := by
  cases hm : s.env.releases with
  | zero => exact ⟨s, by simp [relFailStep, hm]⟩
  | succ k => exact ⟨_, relFailStep_released hm⟩

/-- The step of the running operation is defined: DELAY has a delay, READ a response to fetch, CHECK enough bytes. -/
theorem runningStep_defined (h : PhaseInv s) : ∃ t, runningStep s = .next t := by
  cases hp : s.phase with
  | idle => exact ⟨s, by simp only [runningStep, hp]⟩
  | relOld => rw [runningStep_of_relOld hp]; exact relOldStep_defined s
  | opening => rw [runningStep_of_opening hp]; exact openStep_defined s
  | write => rw [runningStep_of_write hp]; exact writeStep_defined s
  | delay =>
    obtain ⟨_, _, ho, _⟩ := (phaseInv_delay_iff hp).1 h
    rw [runningStep_of_delay hp]
    exact delayStep_defined ho
  | read =>
    obtain ⟨_, _, hn, _⟩ := (phaseInv_read_iff hp).1 h
    rw [runningStep_of_read hp]
    exact readStep_defined hn
  | check =>
    obtain ⟨_, _, _, hl, _⟩ := (phaseInv_check_iff hp).1 h
    rw [runningStep_of_check hp]
    exact checkStep_defined hl
  | relFail => rw [runningStep_of_relFail hp]; exact relFailStep_defined s

/-- An operand that denotes a number has a clamped value. -/
theorem exists_clamp32 {b : Float32Bits} (lo hi : Int) (h : isNaN32 b = false) :
    ∃ x, clamp32 lo hi (real32 b) = some x := by
  cases hr : real32 b with
  | nan => simp [isNaN32, hr] at h
  | finite | posInf | negInf => exact ⟨_, rfl⟩

/-- A well-formed instruction at the evaluation port is answered. -/
theorem exec_defined_of_eval {i : Instr} {e : EvalPort} (hp : portOf i = .eval e) (hw : WellFormed i = true)
    (s : State) : ∃ t, exec i s = .next t := by
  cases i with
  | crc8Bit | crc8Byte | crc8 => exact ⟨_, rfl⟩
  | frame c pl => exact ⟨_, exec_frame_of_length_le c s ((frameDomain_iff pl).1 hw)⟩
  | parse buf n =>
    obtain ⟨_, ws, _, hv⟩ | ⟨_, _, hv⟩ | ⟨hd, _⟩ := parseBytes_cases buf n
    · exact ⟨_, exec_parse_of_ok s hv⟩
    · exact ⟨_, exec_parse_of_badCrc s hv⟩
    · have hdom : parseDomain buf n = true := hw
      rw [hdom] at hd
      cases hd
  | hum2tick v =>
    have hn : isNaN32 v = false := by simpa [WellFormed] using hw
    obtain ⟨x, hx⟩ := exists_clamp32 0 100 hn
    exact ⟨s.answer (.word (tickOf 0 100 x)), by
      simp only [exec, execHum2tick, humidityUnder, Config.numEval, humidityTicks, hx, Option.map_some]⟩
  | temp2tick v =>
    have hn : isNaN32 v = false := by simpa [WellFormed] using hw
    obtain ⟨x, hx⟩ := exists_clamp32 (-45) 130 hn
    exact ⟨s.answer (.word (tickOf (-45) 130 x)), by
      simp only [exec, execTemp2tick, temperatureUnder, Config.numEval, temperatureTicks, hx, Option.map_some]⟩
  | _ => cases hp

end

/-- Settles O54, by what the step runs. -/
theorem invariantStateAlwaysSteps : Obligations.InvariantStateAlwaysSteps := by
  intro s h hport
  have hr := h.noReset
  cases he : s.eval with
  | some p =>
    obtain ⟨i, hd, hw⟩ := hport p he
    rw [step_eval hr he hd]
    exact exec_defined_of_eval (encode_of_decodeEval hd).1 hw s
  | none =>
    by_cases hp : s.phase = .idle
    · cases hq : s.req with
      | none => exact ⟨s, step_wait hr he hp hq⟩
      | some r => exact ⟨_, step_accept hr he hp hq⟩
    · rw [step_busy hr he hp]
      exact runningStep_defined h.phase

/-! ### The transition table (R114) -/

/-- The accept of every operation is a row of the table. -/
theorem move_accept (o : Op) (b : Bool) : Move .idle b o (acceptPhase o b) (acceptStatus o b) := by
  cases b with
  | true =>
    cases o with
    | beginOp => exact .beginBound
    | endOp => exact .endBound
    | getSerial | condition | measureRaw | selfTest | heaterOff | softReset => exact .chipBound _ rfl
  | false =>
    cases o with
    | beginOp => exact .beginUnbound
    | endOp => exact .endUnbound
    | getSerial | condition | measureRaw | selfTest | heaterOff | softReset => exact .chipUnbound _ rfl

/-- From `s` to `t` the block has waited or gone by a row of the table. -/
def WaitsOrMoves (s t : State) : Prop := t = s ∨ Move s.phase s.bound t.op t.phase t.status

section
variable {s t : State}

theorem move_relOldStep (h : PhaseInv s) (hp : s.phase = .relOld) (hs : relOldStep s = .next t) : WaitsOrMoves s t := by
  obtain ⟨hcl, hb, ho⟩ := (phaseInv_relOld_iff hp).1 h
  obtain ⟨_, rfl⟩ | ⟨k, _, rfl⟩ := relOldStep_cases hs
  · exact .inl rfl
  obtain ho | ho := ho
  · exact .inr (by simpa [hp, hb, ho, hcl.status] using Move.relOldBegin)
  · exact .inr (by simpa [hp, hb, ho, hcl.status] using Move.relOldEnd)

theorem move_openStep (h : PhaseInv s) (hp : s.phase = .opening) (hs : openStep s = .next t) : WaitsOrMoves s t := by
  obtain ⟨hcl, hb, ho⟩ := (phaseInv_opening_iff hp).1 h
  obtain ⟨_, rfl⟩ | ⟨hd, rest, _, rfl⟩ | ⟨rest, _, rfl⟩ := openStep_cases hs
  · exact .inl rfl
  · exact .inr (by simpa [hp, hb, ho, hcl.status] using Move.openOk)
  · exact .inr (by simpa [hp, hb, ho] using Move.openFail)

theorem move_writeStep (h : PhaseInv s) (hp : s.phase = .write) (hs : writeStep s = .next t) : WaitsOrMoves s t := by
  obtain ⟨hcl, hb, ho, _⟩ := (phaseInv_write_iff hp).1 h
  unfold writeStep at hs
  split at hs <;> rename_i hop
  · obtain ⟨_, rfl⟩ | ⟨a, rest, _, rfl⟩ := writeGeneralStep_cases hs
    · exact .inl rfl
    · exact .inr (by simpa [hp, hb, hcl.status] using Move.writeDone s.op ho)
  · obtain ⟨_, rfl⟩ | ⟨rest, _, rfl⟩ | ⟨rest, _, rfl⟩ := writeDeviceStep_cases hs
    · exact .inl rfl
    · exact .inr (by simpa [hp, hb, hcl.status] using Move.writeDone s.op ho)
    · by_cases hbegin : s.op = .beginOp
      · exact .inr (by simpa [hp, hb, hbegin] using Move.writeFailBegin)
      · exact .inr (by simpa [hp, hb, hbegin] using Move.writeFailOther s.op hbegin ho hop)

theorem move_delayStep (h : PhaseInv s) (hp : s.phase = .delay) (hs : delayStep s = .next t) : WaitsOrMoves s t := by
  obtain ⟨hcl, hb, ho, _⟩ := (phaseInv_delay_iff hp).1 h
  obtain ⟨ms, _, ⟨_, rfl⟩ | ⟨k, _, rfl⟩⟩ := delayStep_cases hs
  · exact .inl rfl
  by_cases hn : respWords s.op = 0
  · exact .inr (by simpa [hp, hb, hn, hcl.status] using Move.delayDone s.op ho hn)
  · exact .inr (by simpa [hp, hb, hn, hcl.status] using Move.delayRead s.op hn)

theorem move_readStep (h : PhaseInv s) (hp : s.phase = .read) (hs : readStep s = .next t) : WaitsOrMoves s t := by
  obtain ⟨hcl, hb, hn, _⟩ := (phaseInv_read_iff hp).1 h
  obtain ⟨_, ⟨_, rfl⟩ | ⟨bs, rest, _, _, rfl⟩ | ⟨ans, rest, _, _, rfl⟩⟩ := readStep_cases hs
  · exact .inl rfl
  · exact .inr (by simpa [hp, hb, hcl.status] using Move.readOk s.op hn)
  · by_cases hbegin : s.op = .beginOp
    · exact .inr (by simpa [hp, hb, hbegin] using Move.readFailBegin)
    · exact .inr (by simpa [hp, hb, hbegin] using Move.readFailOther s.op hbegin hn)

theorem move_checkStep (h : PhaseInv s) (hp : s.phase = .check) (hs : checkStep s = .next t) : WaitsOrMoves s t := by
  obtain ⟨hcl, hb, hn, _⟩ := (phaseInv_check_iff hp).1 h
  obtain ⟨_, rfl⟩ | ⟨ws, _, ho, _, rfl⟩ | ⟨ws, _, _, rfl⟩ := checkStep_cases hs
  · by_cases hbegin : s.op = .beginOp
    · exact .inr (by simpa [hp, hb, hbegin] using Move.checkCrcBegin)
    · exact .inr (by simpa [hp, hb, hbegin] using Move.checkCrcOther s.op hbegin hn)
  · exact .inr (by simpa [hp, hb, ho] using Move.checkIdent)
  · exact .inr (by simpa [hp, hb, hcl.status] using Move.checkOk s.op hn)

theorem move_relFailStep (h : PhaseInv s) (hp : s.phase = .relFail) (hs : relFailStep s = .next t) :
    WaitsOrMoves s t := by
  obtain ⟨_, hb, ho, _, hc⟩ := (phaseInv_relFail_iff hp).1 h
  obtain ⟨_, rfl⟩ | ⟨k, _, rfl⟩ := relFailStep_cases hs
  · exact .inl rfl
  · exact .inr (by simpa [hp, hb, ho] using Move.relFailDone s.status hc)

/-- The step of the running operation waits or goes by a row of the table. -/
theorem move_runningStep (h : PhaseInv s) (hi : s.phase ≠ .idle) (hs : runningStep s = .next t) : WaitsOrMoves s t := by
  cases hp : s.phase with
  | idle => exact absurd hp hi
  | relOld => exact move_relOldStep h hp (runningStep_of_relOld hp ▸ hs)
  | opening => exact move_openStep h hp (runningStep_of_opening hp ▸ hs)
  | write => exact move_writeStep h hp (runningStep_of_write hp ▸ hs)
  | delay => exact move_delayStep h hp (runningStep_of_delay hp ▸ hs)
  | read => exact move_readStep h hp (runningStep_of_read hp ▸ hs)
  | check => exact move_checkStep h hp (runningStep_of_check hp ▸ hs)
  | relFail => exact move_relFailStep h hp (runningStep_of_relFail hp ▸ hs)

end

/-- Settles O56, by cases on what the step does. -/
theorem everyStepIsARowOfTheTransitionTable : Obligations.EveryStepIsARowOfTheTransitionTable := by
  intro s t h he hs
  obtain ⟨hrst, _⟩ | ⟨_, p, hp, _⟩ | ⟨_, _, _, _, rfl⟩ | ⟨_, _, hp, r, _, rfl⟩ | ⟨_, _, hi, hrun⟩ := step_cases hs
  · simp [h.noReset] at hrst
  · simp [he] at hp
  · exact .inl rfl
  · have hw := acceptWrites_accepted (Op.ofSel r.opsel) r.addr r.p0 r.p1 s
    rw [hw.phase, hw.status, hw.latched.1, hp]
    exact .inr (move_accept ..)
  · exact move_runningStep h.phase hi hrun

/-! ### BOUND counts the bindings (R123 item 1) -/

/-- How many bindings are live: one or none. -/
def held : Option Handle → Nat
  | some _ => 1
  | none => 0

theorem openCount_cons (e : Event) (tr : List Event) : openCount (e :: tr) = openCount [e] + openCount tr :=
  List.countP_append (l₁ := [e])

theorem releaseCount_cons (e : Event) (tr : List Event) : releaseCount (e :: tr) = releaseCount [e] + releaseCount tr :=
  List.countP_append (l₁ := [e])

/-- A call by the rule of handles that opens adds a binding, one that releases takes it away. -/
theorem held_liveAfter {live live' : Option Handle} {e : Event} (h : liveAfter live e = some live') :
    openCount [e] + held live = releaseCount [e] + held live' := by
  cases e with
  | opened a ans =>
    cases live with
    | none => cases h; cases live' <;> rfl
    | some hd => cases h
  | wrote | wroteGeneral | didRead | released =>
    cases live with
    | none => cases h
    | some hd =>
      simp only [liveAfter, Option.ite_none_right_eq_some] at h
      obtain ⟨_, ⟨⟩⟩ := h
      rfl
  | slept => cases live <;> cases h <;> rfl

/-- The same for a trace, from any binding. -/
theorem held_replay {live live' : Option Handle} {tr : List Event} (h : tr.foldlM liveAfter live = some live') :
    openCount tr + held live = releaseCount tr + held live' := by
  induction tr generalizing live with
  | nil => cases h; rfl
  | cons e tr ih =>
    obtain ⟨next, hcall, hrest⟩ := Option.bind_eq_some_iff.1 ((List.foldlM_cons ..).symm.trans h)
    have hhead := held_liveAfter hcall
    have htail := ih hrest
    rw [openCount_cons, releaseCount_cons]
    omega

/-- Settles O55: the replay of the trace starts with no binding and ends with the one that BOUND and HND say. -/
theorem boundCountsOpensMinusReleases : Obligations.BoundCountsOpensMinusReleases := by
  intro s h
  have hcount := held_replay h.binding
  cases hb : s.bound <;> simpa [hb, held] using hcount

end Sys2Proof.Machine
end

section
/-! PROOF. The Unit Converter (44_unit_converter.md R140 to R143): the clamp and the rounding over integers are those
over the rational numbers, for any bounds; the two converters are the bounds [0, 100] and [-45, 130]. -/

namespace Sys2Proof.Machine

/-! ### The rational number a fraction stands for -/

/-- The rational number `num / den`. -/
def Frac.toRat (x : Frac) : ℚ := (x.num : ℚ) / x.den

@[simp] theorem Frac.toRat_mk_one (n : Int) : Frac.toRat ⟨n, 1⟩ = n := by simp [Frac.toRat]

section
variable {x : Frac}

theorem Frac.toRat_lt_intCast_iff (hd : 0 < x.den) (n : Int) : x.toRat < n ↔ x.num < n * x.den := by
  rw [Frac.toRat, div_lt_iff₀ (by exact_mod_cast hd)]
  exact_mod_cast Iff.rfl

theorem Frac.intCast_lt_toRat_iff (hd : 0 < x.den) (n : Int) : (n : ℚ) < x.toRat ↔ n * x.den < x.num := by
  rw [Frac.toRat, lt_div_iff₀ (by exact_mod_cast hd)]
  exact_mod_cast Iff.rfl

end

theorem magnitude32_den_pos (expo man : Nat) : 0 < (magnitude32 expo man).den := by
  unfold magnitude32
  split_ifs
  · exact Nat.two_pow_pos _
  · exact Nat.one_pos
  · exact Nat.two_pow_pos _

/-- The number of a finite operand has a positive denominator, as `Frac` asks. -/
theorem den_pos_of_real32_eq_finite {b : Float32Bits} {x : Frac} (h : real32 b = .finite x) : 0 < x.den := by
  simp only [real32] at h
  split_ifs at h
  all_goals
    cases h
    exact magnitude32_den_pos ..

/-! ### The clamp and the rounding, for any bounds -/

section
variable {lo hi : Int}

/-- The clamp by comparing integers is the clamp of rational numbers. -/
theorem clamp32_finite {x : Frac} (hd : 0 < x.den) (hlh : lo ≤ hi) :
    ∃ c, clamp32 lo hi (.finite x) = some c ∧ 0 < c.den ∧ c.toRat = min (hi : ℚ) (max lo x.toRat) := by
  have hq : (lo : ℚ) ≤ hi := by exact_mod_cast hlh
  refine ⟨_, rfl, ?_⟩
  split_ifs with hlow hhigh
  · have hx := ((Frac.toRat_lt_intCast_iff hd lo).2 hlow).le
    exact ⟨Nat.one_pos, by rw [Frac.toRat_mk_one, max_eq_left hx, min_eq_right hq]⟩
  · have hx := ((Frac.intCast_lt_toRat_iff hd hi).2 hhigh).le
    exact ⟨Nat.one_pos, by rw [Frac.toRat_mk_one, max_eq_right (hq.trans hx), min_eq_left hx]⟩
  · have hlo := not_lt.1 (mt (Frac.toRat_lt_intCast_iff hd lo).1 hlow)
    have hhi := not_lt.1 (mt (Frac.intCast_lt_toRat_iff hd hi).1 hhigh)
    exact ⟨hd, by rw [max_eq_right hlo, min_eq_right hhi]⟩

/-- R142: the rational number whose floor is the tick of `q`. -/
def scaled (lo hi : Int) (q : ℚ) : ℚ := (q - lo) * 65535 / (hi - lo) + 1 / 2

/-- The integer division of `tickOf` is the floor of the scaled number. -/
theorem tickOf_eq_floor {c : Frac} (hd : 0 < c.den) (hlh : lo < hi) :
    tickOf lo hi c = BitVec.ofInt 16 ⌊scaled lo hi c.toRat⌋ := by
  have hw : 0 ≤ 2 * (hi - lo) * (c.den : Int) := by have := sub_pos.2 hlh; positivity
  have hden : (c.den : ℚ) ≠ 0 := by exact_mod_cast hd.ne'
  have hspan : (hi : ℚ) - lo ≠ 0 := by exact_mod_cast (sub_pos.2 hlh).ne'
  rw [tickOf, ← Int.floor_intCast (R := ℚ) (_ * 2 + _), ← Int.floor_div_cast_of_nonneg hw]
  congr 2
  push_cast [scaled, Frac.toRat]
  field_simp

/-- Between the bounds the rounded number fits a tick: it does not wrap. -/
theorem floor_scaled_mem {q : ℚ} (hlh : lo < hi) (hlo : lo ≤ q) (hhi : q ≤ hi) :
    0 ≤ ⌊scaled lo hi q⌋ ∧ ⌊scaled lo hi q⌋ < 2 ^ 16 := by
  have hspan : (0 : ℚ) < hi - lo := by exact_mod_cast sub_pos.2 hlh
  have hnum : 0 ≤ q - lo := sub_nonneg.2 hlo
  have hle : (q - lo) * 65535 / (hi - lo) ≤ 65535 := by
    rw [div_le_iff₀ hspan]
    linarith
  refine ⟨Int.floor_nonneg.2 ?_, Int.floor_lt.2 ?_⟩ <;> unfold scaled
  · positivity
  · push_cast; linarith

/-- The tick of a number between the bounds is the scaled number rounded down, as an unsigned number. -/
theorem toNat_tickOf {c : Frac} (hd : 0 < c.den) (hlh : lo < hi) (hlo : lo ≤ c.toRat) (hhi : c.toRat ≤ hi) :
    ((tickOf lo hi c).toNat : ℤ) = ⌊scaled lo hi c.toRat⌋ := by
  obtain ⟨hnonneg, hlt⟩ := floor_scaled_mem hlh hlo hhi
  rw [tickOf_eq_floor hd hlh, BitVec.toNat_ofInt]
  omega

/-- The tick of the upper bound is the largest one. -/
theorem tickOf_upper (hlh : lo < hi) : tickOf lo hi ⟨hi, 1⟩ = 0xFFFF#16 := by
  have hspan : (hi : ℚ) - lo ≠ 0 := by exact_mod_cast (sub_pos.2 hlh).ne'
  have hscaled : scaled lo hi hi = 65535 + 1 / 2 := by
    rw [scaled]
    field_simp
  rw [tickOf_eq_floor Nat.one_pos hlh, Frac.toRat_mk_one, hscaled]
  norm_num

/-- The tick of the lower bound is 0. -/
theorem tickOf_lower (hlh : lo < hi) : tickOf lo hi ⟨lo, 1⟩ = 0x0000#16 := by
  rw [tickOf_eq_floor Nat.one_pos hlh, Frac.toRat_mk_one]
  norm_num [scaled]

end

/-! ### The conversion, for any bounds -/

/-- What both converters do under `NUM_EVAL = exact`: answer the tick of the clamped operand, or refuse a NaN. -/
def converted (lo hi : Int) (b : Float32Bits) (s : State) : Result :=
  match (clamp32 lo hi (real32 b)).map (tickOf lo hi) with
  | some t => .next (s.answer (.word t))
  | none => .refused .nanOperand

/-- HUM2TICK converts between 0 and 100 (R140). -/
theorem exec_hum2tick (b : Float32Bits) (s : State) : exec (.hum2tick b) s = converted 0 100 b s := rfl

/-- TEMP2TICK converts between -45 and 130 (R141). -/
theorem exec_temp2tick (b : Float32Bits) (s : State) : exec (.temp2tick b) s = converted (-45) 130 b s := rfl

section
variable {lo hi : Int} {b : Float32Bits}

/-- A number is clamped, scaled and rounded half up. -/
theorem converted_of_finite {x : Frac} (hlh : lo < hi) (hx : real32 b = .finite x) (s : State) :
    ∃ t : Word, (t.toNat : ℤ) = ⌊scaled lo hi (min (hi : ℚ) (max lo x.toRat))⌋ ∧
      converted lo hi b s = .next (s.answer (.word t)) := by
  obtain ⟨c, hc, hd, hval⟩ := clamp32_finite (den_pos_of_real32_eq_finite hx) hlh.le
  have hq : (lo : ℚ) ≤ hi := by exact_mod_cast hlh.le
  have hlo : (lo : ℚ) ≤ c.toRat := hval ▸ le_min hq (le_max_left ..)
  have hhi : c.toRat ≤ hi := hval ▸ min_le_left ..
  exact ⟨tickOf lo hi c, hval ▸ toNat_tickOf hd hlh hlo hhi, by simp only [converted, hx, hc, Option.map_some]⟩

theorem converted_of_posInf (hlh : lo < hi) (hx : real32 b = .posInf) (s : State) :
    converted lo hi b s = .next (s.answer (.word 0xFFFF#16)) := by
  simp only [converted, hx, clamp32, Option.map_some, tickOf_upper hlh]

theorem converted_of_negInf (hlh : lo < hi) (hx : real32 b = .negInf) (s : State) :
    converted lo hi b s = .next (s.answer (.word 0x0000#16)) := by
  simp only [converted, hx, clamp32, Option.map_some, tickOf_lower hlh]

theorem converted_of_nan (hx : real32 b = .nan) (s : State) : converted lo hi b s = .refused .nanOperand := by
  simp only [converted, hx, clamp32, Option.map_none]

/-- The conversion by what the operand denotes: a number, an infinity on either side, or none. -/
theorem converted_by_operand (hlh : lo < hi) (b : Float32Bits) (s : State) :
    (∀ x, real32 b = .finite x → ∃ t : Word,
      (t.toNat : ℤ) = ⌊scaled lo hi (min (hi : ℚ) (max lo x.toRat))⌋ ∧
      converted lo hi b s = .next (s.answer (.word t))) ∧
    (real32 b = .posInf → converted lo hi b s = .next (s.answer (.word 0xFFFF#16))) ∧
    (real32 b = .negInf → converted lo hi b s = .next (s.answer (.word 0x0000#16))) ∧
    (real32 b = .nan → converted lo hi b s = .refused .nanOperand) :=
  ⟨fun _ hx => converted_of_finite hlh hx s, fun hx => converted_of_posInf hlh hx s,
    fun hx => converted_of_negInf hlh hx s, fun hx => converted_of_nan hx s⟩

end

/-! ### The two converters -/

/-- R140 writes the scaled number without the lower bound, which is 0. -/
theorem scaled_humidity (q : ℚ) : scaled 0 100 q = q * 65535 / 100 + 1 / 2 := by
  norm_num [scaled]

/-- R141 writes the scaled number with the bounds as numerals. -/
theorem scaled_temperature (q : ℚ) : scaled (-45) 130 q = (q + 45) * 65535 / 175 + 1 / 2 := by
  norm_num [scaled]

/-- Settles O50: the conversion with the bounds 0 and 100. -/
theorem humidityClampsAndRoundsHalfUp : Obligations.HumidityClampsAndRoundsHalfUp := by
  intro b s
  simpa only [exec_hum2tick, scaled_humidity, Int.cast_zero, Int.cast_ofNat, Frac.toRat, State.answer] using
    converted_by_operand (lo := 0) (hi := 100) (by decide) b s

/-- Settles O51: the conversion with the bounds -45 and 130. -/
theorem temperatureClampsAndRoundsHalfUp : Obligations.TemperatureClampsAndRoundsHalfUp := by
  intro b s
  simpa only [exec_temp2tick, scaled_temperature, Int.cast_neg, Int.cast_ofNat, Frac.toRat, State.answer] using
    converted_by_operand (lo := -45) (hi := 130) (by decide) b s

end Sys2Proof.Machine
end

section
/-! PROOF. The failures (60_exceptions.md): the abort path as the one way in which a running operation changes STATUS, and
the chip operation that ends in its accept because no binding is held. -/

namespace Sys2Proof.Machine

/-! ### The abort path (R155) -/

/-- From `s` to `t` the operation was aborted: STATUS and PHASE were written, and the call of the step was made. -/
def Aborted (s t : State) : Prop :=
  t = { s with
    status := t.status, phase := if s.op = .beginOp ∧ s.bound = true then .relFail else .idle,
    env := t.env, trace := t.trace }

/-- Taking a failure is an abort of the state before the call that failed, whatever that call left in the queues and in
the trace. -/
theorem aborted_raiseFail (s : State) (env : Env) (tr : List Event) (c : Status) :
    Aborted s (({ s with env := env, trace := tr } : State).raiseFail c) := rfl

/-- From `s` to `t` STATUS was left as it is, or the operation was aborted. -/
def KeepsStatusOrAborts (s t : State) : Prop := t.status = s.status ∨ Aborted s t

section
variable {s t : State}

/-- REL_OLD cannot fail. -/
theorem relOldStep_status (h : relOldStep s = .next t) : t.status = s.status := by
  obtain ⟨_, rfl⟩ | ⟨k, _, rfl⟩ := relOldStep_cases h <;> rfl

/-- DELAY cannot fail. -/
theorem delayStep_status (h : delayStep s = .next t) : t.status = s.status := by
  obtain ⟨ms, _, ⟨_, rfl⟩ | ⟨k, _, rfl⟩⟩ := delayStep_cases h <;> rfl

/-- REL_FAIL cannot fail again: STATUS keeps the code of the failure that led there (R112, R157). -/
theorem relFailStep_status (h : relFailStep s = .next t) : t.status = s.status := by
  obtain ⟨_, rfl⟩ | ⟨k, _, rfl⟩ := relFailStep_cases h <;> rfl

/-- OPEN aborts where `T.open` answers `fail`. -/
theorem keepsStatusOrAborts_openStep (h : openStep s = .next t) : KeepsStatusOrAborts s t := by
  obtain ⟨_, rfl⟩ | ⟨hd, rest, _, rfl⟩ | ⟨rest, _, rfl⟩ := openStep_cases h
  · exact .inl rfl
  · exact .inl rfl
  · exact .inr (aborted_raiseFail ..)

/-- WRITE aborts where `T.write` answers `fail`; the general call cannot fail (R106). -/
theorem keepsStatusOrAborts_writeStep (h : writeStep s = .next t) : KeepsStatusOrAborts s t := by
  unfold writeStep at h
  split at h
  · obtain ⟨_, rfl⟩ | ⟨a, rest, _, rfl⟩ := writeGeneralStep_cases h
    · exact .inl rfl
    · exact .inl rfl
  · obtain ⟨_, rfl⟩ | ⟨rest, _, rfl⟩ | ⟨rest, _, rfl⟩ := writeDeviceStep_cases h
    · exact .inl rfl
    · exact .inl rfl
    · exact .inr (aborted_raiseFail ..)

/-- READ aborts where the answer is not the response asked for. -/
theorem keepsStatusOrAborts_readStep (h : readStep s = .next t) : KeepsStatusOrAborts s t := by
  obtain ⟨_, ⟨_, rfl⟩ | ⟨bs, rest, _, _, rfl⟩ | ⟨ans, rest, _, _, rfl⟩⟩ := readStep_cases h
  · exact .inl rfl
  · exact .inl rfl
  · exact .inr (aborted_raiseFail ..)

/-- CHECK aborts on a wrong checksum and on a rejected identity, without a call. -/
theorem keepsStatusOrAborts_checkStep (h : checkStep s = .next t) : KeepsStatusOrAborts s t := by
  obtain ⟨_, rfl⟩ | ⟨ws, _, _, _, rfl⟩ | ⟨ws, _, _, rfl⟩ := checkStep_cases h
  · exact .inr (aborted_raiseFail s s.env s.trace .eCrc)
  · exact .inr (aborted_raiseFail s s.env s.trace .eIdent)
  · exact .inl rfl

/-- Abort is the one way in which the step of the running operation changes STATUS. -/
theorem keepsStatusOrAborts_runningStep (h : runningStep s = .next t) : KeepsStatusOrAborts s t := by
  unfold runningStep at h
  cases hp : s.phase <;> simp only [hp] at h
  case idle => cases h; exact .inl rfl
  case relOld => exact .inl (relOldStep_status h)
  case opening => exact keepsStatusOrAborts_openStep h
  case write => exact keepsStatusOrAborts_writeStep h
  case delay => exact .inl (delayStep_status h)
  case read => exact keepsStatusOrAborts_readStep h
  case check => exact keepsStatusOrAborts_checkStep h
  case relFail => exact .inl (relFailStep_status h)

end

/-- Settles O33: a busy block takes the step of the running operation, which keeps STATUS or aborts. -/
theorem abortWritesStatusAndPhaseOnly : Obligations.AbortWritesStatusAndPhaseOnly := by
  intro s t hr he hp hs hne
  rw [step_busy hr he hp] at hs
  exact (keepsStatusOrAborts_runningStep hs).resolve_left hne

/-! ### A chip operation without a binding (R160) -/

/-- The six chip operations are the requests of the operations that need a binding. -/
theorem exists_decodeRequest_of_mem_chip {a : Addr} {p0 p1 : Word} {i : Instr}
    (h : i ∈ [Instr.getSerial a p0 p1, .condition a p0 p1, .measureRaw a p0 p1, .selfTest a p0 p1, .heaterOff a p0 p1,
      .softReset a p0 p1]) :
    ∃ o, needsBound o = true ∧ i = decodeRequest ⟨o.sel, a, p0, p1⟩ := by
  simp only [List.mem_cons, List.not_mem_nil, or_false] at h
  obtain rfl | rfl | rfl | rfl | rfl | rfl := h
  · exact ⟨.getSerial, rfl, rfl⟩
  · exact ⟨.condition, rfl, rfl⟩
  · exact ⟨.measureRaw, rfl, rfl⟩
  · exact ⟨.selfTest, rfl, rfl⟩
  · exact ⟨.heaterOff, rfl, rfl⟩
  · exact ⟨.softReset, rfl, rfl⟩

/-- On an idle block which holds no binding a requested chip operation ends in its accept step. -/
theorem exec_chip_unbound {s : State} {o : Op} (a : Addr) (p0 p1 : Word) (hp : s.phase = .idle) (hb : s.bound = false)
    (hc : needsBound o = true) : exec (decodeRequest ⟨o.sel, a, p0, p1⟩) s =
      .next (((s.latch o p0 p1).setStatus .eNotReady).setPhase .idle) := by
  rw [exec_request_idle _ hp, Op.ofSel_sel, accepted_of_needsBound hc, acceptChip_unbound _ _ _ hb]

/-- Settles O23: the accept of each chip operation writes E_NOT_READY and blank words, and makes no call. -/
theorem unboundChipOperationIsNotReady : Obligations.UnboundChipOperationIsNotReady := by
  intro a p0 p1 s hp hb i hi
  obtain ⟨o, hc, rfl⟩ := exists_decodeRequest_of_mem_chip hi
  exact ⟨_, exec_chip_unbound a p0 p1 hp hb hc, rfl, rfl, rfl, hb, rfl, rfl, rfl, rfl, rfl, rfl⟩

end Sys2Proof.Machine
end

section
/-! PROOF. The hardware reset of the block (70_reset_and_hazards.md R170, R171): the registers take the values of
`State.reset`, and what stands outside the block stays. -/

namespace Sys2Proof.Machine

/-- Settles O2: with the reset input set the step is `hardwareReset`, whose trace, answers and request are those before it
(R171) and whose registers hold the reset values (R170). -/
theorem hardwareResetMakesNoExternalCall : Obligations.HardwareResetMakesNoExternalCall := by
  intro s hr
  refine ⟨s.hardwareReset, step_reset hr, s.hardwareReset_trace, s.hardwareReset_env, s.hardwareReset_req, ?_⟩
  simp [State.reset]

end Sys2Proof.Machine
end
